-- ==== Sys2Proof/Word.lean ====
section
/-! DEFINITION. The block's value widths (00_scope.md R7, R10). -/

namespace Sys2Proof

/-- `u8`: a byte of a buffer, a station address, a message identifier (00_scope.md R7). -/
abbrev Byte := BitVec 8

/-- `u16`: the envelope's mode, the frame and datagram lengths (00_scope.md R10). -/
abbrev Half := BitVec 16

/-- `u32`: the width of the block transform and of every wide register (00_scope.md R7, R10). -/
abbrev Word := BitVec 32

end Sys2Proof
end

