-- ==== Sys2Proof/Config.lean ====
section
/-! DEFINITION. What the spec leaves open: the contents of buffer bytes nothing has written, and the parameter STRICT. -/

namespace Sys2Proof

/-- DESIGN CHOICE (log 1), safe. 20_memory.md R66: a buffer byte that nothing has written since reset returns "any value
(a draw), never zero", fixed until written (93_implementation_defined.md U2). The first argument says which reset's draw
it is (`State.draw`), the second is the byte's window offset. No body: no proof can learn a value of it. -/
opaque Config.unwrittenByte : Nat → Nat → Byte

/-- DESIGN CHOICE (log 3), unsafe only for statements about `State.reset`. The default 00_scope.md R9 gives the open
parameter STRICT: "With STRICT = false (the literal reading of §4.1 and §4.3 ...)". -/
def Config.strictDefault : Bool := false

end Sys2Proof
end

