-- ==== Sys2Proof/Syntax.lean ====
section
/-! DEFINITION. The opcode table's rows as one inductive, and the words they are written in (30_encoding.md). -/

namespace Sys2Proof

/-- The wire formats of the opcode table (30_encoding.md R84, R85, R89, R90). -/
inductive WireFormat where
  /-- FRAME6, R84. -/
  | shortFrame
  /-- FRAME_LONG, the first seven bytes of R85. -/
  | longFrameHead
  /-- ENV14, R89. -/
  | envelopeHeader
  /-- ENVBODY, the byte LM of R90. -/
  | envelopeBodyHead
  deriving DecidableEq, Repr

/-- One constructor for each row of the opcode table. The nine commands have no operand field (30_encoding.md R80);
the four wire-format rows are "not a command" and carry the fields of their patterns. -/
inductive Instr where
  /-- TRANSFORM, 40_blockcipher.md R111. -/
  | transform
  /-- CKSUM, 41_framecodec.md R122. -/
  | cksum
  /-- FENC, 41_framecodec.md R125. -/
  | fenc
  /-- FDEC, 41_framecodec.md R129. -/
  | fdec
  /-- KSTREAM, 42_envelope.md R142. -/
  | kstream
  /-- CRYPT, 42_envelope.md R146. -/
  | crypt
  /-- ESIGN, 42_envelope.md R149. -/
  | esign
  /-- ESER, 42_envelope.md R153. -/
  | eser
  /-- EDES, 42_envelope.md R156. -/
  | edes
  /-- WIRE.SHORT_FRAME: bytes 1 to 4 of the short frame (30_encoding.md R84). -/
  | wireShortFrame (dst src msg ck : Byte)
  /-- WIRE.LONG_FRAME_HEAD: the length byte LB (bytes 1 and 2, equal) and bytes 4 to 6 of the long frame (R85). -/
  | wireLongFrameHead (lb dst src msg : Byte)
  /-- WIRE.ENVELOPE_HEADER: the four little-endian fields of the header (R89). -/
  | wireEnvelopeHeader (tid : Word) (mode : Half) (skey sig : Word)
  /-- WIRE.ENVELOPE_BODY_HEAD: the length marker LM (R90). -/
  | wireEnvelopeBodyHead (lm : Byte)
  deriving DecidableEq, Repr

/-- What a row's words are: a 32-bit number for a command (registers have no byte order, 20_memory.md R61), bytes in
wire order for a wire format (00_scope.md R10). -/
inductive Words where
  | command (value : Word)
  | wire (fmt : WireFormat) (bytes : List Byte)
  deriving DecidableEq, Repr

/-- Whether a row is one of the nine commands of 00_scope.md R2. -/
def Instr.isCommand : Instr → Bool
  | .transform | .cksum | .fenc | .fdec | .kstream | .crypt | .esign | .eser | .edes => true
  | .wireShortFrame _ _ _ _ | .wireLongFrameHead _ _ _ _ | .wireEnvelopeHeader _ _ _ _ | .wireEnvelopeBodyHead _ => false

end Sys2Proof
end

