-- ==== Sys2Proof/Machine/State.lean ====
section
/-! DEFINITION. The state of the block (10_state.md R20 to R49), the host's accesses, and the ways a step can stop. -/

namespace Sys2Proof.Machine

/-- The source's `DbNetFrame` (00_scope.md R12). An absent payload (`none`) and an empty one (`some []`) are different
values (10_state.md R49). -/
structure Frame where
  sourceAddr : Byte
  destAddr : Byte
  msgId : Byte
  payload : Option (List Byte)
  deriving DecidableEq, Repr

/-- The source's `Envelope` (00_scope.md R12, 10_state.md R49). -/
structure Envelope where
  transactionId : Word
  mode : Half
  stationKey : Word
  signature : Word
  innerFrame : Option Frame
  deriving DecidableEq, Repr

/-- The kinds a command can fail with (60_exceptions.md R201). -/
inductive ErrorKind where
  | framingError
  | checksumMismatch
  | signatureMismatch
  | lengthMismatch
  | protocolError
  | operandRange
  | illegalCommand
  deriving DecidableEq, Repr

/-- The 22 registers by name (10_state.md R22 to R43). -/
inductive Reg where
  | cmd | status | ctrl | password | key | data | result | src | dst | msgid | fctl
  | plen | ck | tid | mode | skey | sig | ectl | k1 | k2 | flen | dlen
  deriving DecidableEq, Repr

/-- The three byte buffers by name (10_state.md R44 to R46). -/
inductive Buf where
  | pbuf | fbuf | dbuf
  deriving DecidableEq, Repr

/-- One thing the outside does to the block: `MemRead(addr, size)`, `MemWrite(addr, size, value)` (00_scope.md R11,
20_memory.md R61, R62), or the reset event (70_reset_and_hazards.md R230). -/
inductive HostEvent where
  | read (addr size : Nat)
  | write (addr size value : Nat)
  | reset
  deriving DecidableEq, Repr

/-- The whole state. The first group is the spec's (R20): the 21 registers that store something (CMD stores nothing, R22)
and the three buffers. The second group is the model's own. -/
structure State where
  /-- STATUS, R23. -/
  status : BitVec 8
  /-- CTRL, bit 0 is PWEN, R24. -/
  ctrl : BitVec 1
  /-- PASSWORD, R25. -/
  password : BitVec 32
  /-- KEY, R26. -/
  key : BitVec 32
  /-- DATA, R27. -/
  data : BitVec 32
  /-- RESULT, R28. -/
  result : BitVec 32
  /-- SRC, R29. -/
  src : BitVec 8
  /-- DST, R30. -/
  dst : BitVec 8
  /-- MSGID, R31. -/
  msgid : BitVec 8
  /-- FCTL, bit 0 is HASP, R32. -/
  fctl : BitVec 1
  /-- PLEN, R33. -/
  plen : BitVec 8
  /-- CK, R34. -/
  ck : BitVec 8
  /-- TID, R35. -/
  tid : BitVec 32
  /-- MODE, R36. -/
  mode : BitVec 16
  /-- SKEY, R37. -/
  skey : BitVec 32
  /-- SIG, R38. -/
  sig : BitVec 32
  /-- ECTL, bit 0 is HASF, R39. -/
  ectl : BitVec 1
  /-- K1, R40. -/
  k1 : BitVec 32
  /-- K2, R41. -/
  k2 : BitVec 32
  /-- FLEN, R42. -/
  flen : BitVec 16
  /-- DLEN, R43. -/
  dlen : BitVec 16
  /-- PBUF, FBUF and DBUF (R44 to R46): the bytes written since reset, by window offset, offsets strictly rising. -/
  mem : List Host.Cell
  /-- The model's own (log 1, 2): which draw the bytes nothing has written hold (20_memory.md R66). -/
  draw : Nat
  /-- The model's own (log 3): the parameter STRICT (00_scope.md R9). No step writes it. -/
  strict : Bool
  /-- The model's own (log 4): the host's accesses still to come, in its program order (20_memory.md R70). -/
  pending : List HostEvent
  /-- The model's own (log 5): the values the host's reads have returned, newest first (20_memory.md R61, R62). -/
  answers : List (BitVec 32)
  deriving DecidableEq, Repr

/-- Why a step stops with a fault. Commands never do (60_exceptions.md R200). -/
inductive Fault where
  /-- Raised by a host access at or above the window's end 0x800: the address space has no such offset (20_memory.md R60;
  log 8). Safe: the access is not the block's, so the model says nothing of it. -/
  | outsideWindow
  deriving DecidableEq, Repr

/-- Why a step is refused. -/
inductive Refusal where
  /-- Raised by an arm of `exec` with no meaning yet. Safe. -/
  | notModelled (mnemonic : String)
  /-- Raised where a wire-format row is given as a command: it is "not a command" (opcode_table.json; 00_scope.md R2;
  log 7). Safe: the spec gives it no step. -/
  | notACommand (fmt : WireFormat)
  /-- Raised by a register-region access of a size other than 4 (20_memory.md R65). Safe: the spec asks for refusal. -/
  | registerAccessSize
  /-- Raised by a register-region access at an address that is not a multiple of 4 (20_memory.md R65). Safe. -/
  | misalignedRegister
  /-- Raised by a buffer access of a size other than 1 (20_memory.md R65). Safe. -/
  | bufferAccessSize
  /-- Raised by an access to a reserved offset of the window (20_memory.md R63, R65). Safe. -/
  | reservedOffset
  deriving DecidableEq, Repr

/-- The machine right after reset (10_state.md R47, 70_reset_and_hazards.md R230): every register zero, no buffer byte
written. DESIGN CHOICE (log 2, 3, 4, 5): the first draw, STRICT at R9's default, no access pending, none answered. -/
def State.reset : State where
  status := 0#8
  ctrl := 0#1
  password := 0#32
  key := 0#32
  data := 0#32
  result := 0#32
  src := 0#8
  dst := 0#8
  msgid := 0#8
  fctl := 0#1
  plen := 0#8
  ck := 0#8
  tid := 0#32
  mode := 0#16
  skey := 0#32
  sig := 0#32
  ectl := 0#1
  k1 := 0#32
  k2 := 0#32
  flen := 0#16
  dlen := 0#16
  mem := []
  draw := 0
  strict := Config.strictDefault
  pending := []
  answers := []

end Sys2Proof.Machine
end

