-- ==== Sys2Proof/Machine/AddressMap.lean ====
section
/-! DEFINITION. The host window: offsets, widths and access of the registers, and the buffers' places (20_memory.md R60, R63). -/

namespace Sys2Proof.Machine

/-- The window's size in bytes (R60). -/
abbrev windowSize : Nat := 0x800

/-- The window offset of a buffer's byte 0 (R62, R63). -/
def Buf.base : Buf → Nat
  | .pbuf => 0x100
  | .fbuf => 0x200
  | .dbuf => 0x400

/-- The buffer's size in bytes: `PBUF_CAP`, `FBUF_CAP`, `DBUF_CAP` (00_scope.md R8; 10_state.md R44 to R46). -/
def Buf.cap : Buf → Nat
  | .pbuf => 256
  | .fbuf => 261
  | .dbuf => 276

/-- Whether offset `a` is a byte of buffer `b` (R62). -/
def Buf.holds (b : Buf) (a : Nat) : Bool :=
  decide (b.base ≤ a) && decide (a < b.base + b.cap)

/-- Whether offset `a` is a byte of any of the three buffers (R63). -/
def inBuffer (a : Nat) : Bool :=
  Buf.pbuf.holds a || Buf.fbuf.holds a || Buf.dbuf.holds a

/-- The first offset past the register region (R60). -/
abbrev registerRegionEnd : Nat := 0x100

/-- How the host may access a register (10_state.md section 2). -/
inductive Access where
  /-- Read and write. -/
  | rw
  /-- Read only: a write has no effect (R64). -/
  | ro
  /-- Write only: a read returns zero (R61). -/
  | wo
  deriving DecidableEq, Repr

/-- A register's window offset (R63). -/
def Reg.offset : Reg → Nat
  | .cmd => 0x000
  | .status => 0x004
  | .ctrl => 0x008
  | .password => 0x00C
  | .key => 0x010
  | .data => 0x014
  | .result => 0x018
  | .src => 0x01C
  | .dst => 0x020
  | .msgid => 0x024
  | .fctl => 0x028
  | .plen => 0x02C
  | .ck => 0x030
  | .tid => 0x034
  | .mode => 0x038
  | .skey => 0x03C
  | .sig => 0x040
  | .ectl => 0x044
  | .k1 => 0x048
  | .k2 => 0x04C
  | .flen => 0x050
  | .dlen => 0x054

/-- A register's width in bits (R63). -/
def Reg.width : Reg → Nat
  | .ctrl | .fctl | .ectl => 1
  | .status | .src | .dst | .msgid | .plen | .ck => 8
  | .mode | .flen | .dlen => 16
  | .cmd | .password | .key | .data | .result | .tid | .skey | .sig | .k1 | .k2 => 32

/-- A register's access (R63). -/
def Reg.access : Reg → Access
  | .cmd => .wo
  | .status | .result | .ck | .k1 | .k2 => .ro
  | .ctrl | .password | .key | .data | .src | .dst | .msgid | .fctl | .plen | .tid | .mode | .skey | .sig | .ectl
  | .flen | .dlen => .rw

/-- The 22 registers in the order of their offsets (R63). -/
def allRegs : List Reg :=
  [.cmd, .status, .ctrl, .password, .key, .data, .result, .src, .dst, .msgid, .fctl,
   .plen, .ck, .tid, .mode, .skey, .sig, .ectl, .k1, .k2, .flen, .dlen]

/-- The register at an offset, `none` at a reserved or misaligned one (R63). -/
def regAt (a : Nat) : Option Reg :=
  allRegs.find? fun r => r.offset == a

end Sys2Proof.Machine
end

