-- ==== Sys2Proof/Machine/Flags.lean ====
section
/-! DEFINITION. STATUS codes and the three presence bits, the block's only flag-like state (10_state.md R48). -/

namespace Sys2Proof.Machine

/-- STATUS after a success (60_exceptions.md R201). -/
def statusOk : BitVec 8 := 0#8

/-- The STATUS code of an error kind (60_exceptions.md R201). -/
def ErrorKind.code : ErrorKind → BitVec 8
  | .framingError => 1#8
  | .checksumMismatch => 2#8
  | .signatureMismatch => 3#8
  | .lengthMismatch => 4#8
  | .protocolError => 5#8
  | .operandRange => 6#8
  | .illegalCommand => 7#8

/-- PWEN, bit 0 of CTRL: a password is configured (10_state.md R24). -/
def State.pwen (s : State) : Bool := s.ctrl == 1#1

/-- HASP, bit 0 of FCTL: the frame has a payload (10_state.md R32). -/
def State.hasp (s : State) : Bool := s.fctl == 1#1

/-- HASF, bit 0 of ECTL: the envelope has an inner frame (10_state.md R39). -/
def State.hasf (s : State) : Bool := s.ectl == 1#1

/-- A presence bit's register value. -/
def presenceBit (present : Bool) : BitVec 1 := if present then 1#1 else 0#1

end Sys2Proof.Machine
end

