-- ==== Sys2Proof/Machine/Ops.lean ====
section
/-! DEFINITION. The operations over buffers and registers, how a command ends (60_exceptions.md R200, R207), and reset. -/

namespace Sys2Proof.Machine

/-- The byte written at an offset since reset, `none` where nothing has written (20_memory.md R66). -/
def Memory.get? : List Host.Cell → Nat → Option Byte
  | [], _ => none
  | (k, v) :: rest, a => if k = a then some v else Memory.get? rest a

/-- One byte written, offsets kept strictly rising. -/
def Memory.set : List Host.Cell → Nat → Byte → List Host.Cell
  | [], a, b => [(a, b)]
  | (k, v) :: rest, a, b =>
    if a < k then (a, b) :: (k, v) :: rest
    else if a = k then (a, b) :: rest
    else (k, v) :: Memory.set rest a b

/-- Bytes written one after another from offset `a` up. -/
def Memory.setBytes : List Host.Cell → Nat → List Byte → List Host.Cell
  | m, _, [] => m
  | m, a, b :: bs => Memory.setBytes (Memory.set m a b) (a + 1) bs

/-- The canonical form (log 1): offsets strictly rising, each one a byte of a buffer. An unlisted offset is a byte nothing
has written and holds no byte of its own, so no entry can equal what an unlisted offset holds, and equal contents are
equal lists. -/
abbrev Memory.wf (m : List Host.Cell) : Prop :=
  m.Pairwise (fun c d => c.1 < d.1) ∧ ∀ c ∈ m, inBuffer c.1 = true

/-- What the byte at an offset reads as: the byte last written, else the draw's free value (20_memory.md R66). -/
def State.readByte (s : State) (a : Nat) : Byte :=
  (Memory.get? s.mem a).getD (Config.unwrittenByte s.draw a)

/-- `BUF[i]` (00_scope.md R10, 20_memory.md R62). -/
def State.bufByte (s : State) (b : Buf) (i : Nat) : Byte :=
  s.readByte (b.base + i)

/-- `BUF[0..n-1]` (00_scope.md R10). -/
def State.bufBytes (s : State) (b : Buf) (n : Nat) : List Byte :=
  (List.range n).map (s.bufByte b)

/-- The byte at window offset `a` written. -/
def State.writeByte (s : State) (a : Nat) (v : Byte) : State :=
  { s with mem := Memory.set s.mem a v }

/-- `BUF[0..len(bytes)-1] <- bytes`; bytes at `len(bytes)` and above keep their values (20_memory.md R66). -/
def State.storeBuf (s : State) (b : Buf) (bytes : List Byte) : State :=
  { s with mem := Memory.setBytes s.mem b.base bytes }

/-- `STATUS <- v`. -/
def State.setStatus (s : State) (v : BitVec 8) : State :=
  { s with status := v }

/-- The rest of the host's accesses. -/
def State.setPending (s : State) (rest : List HostEvent) : State :=
  { s with pending := rest }

/-- A read returns `v` to the host. -/
def State.answer (s : State) (v : Word) : State :=
  { s with answers := v :: s.answers }

/-- `raise K`: the block's whole exception entry. STATUS takes the kind's code and nothing else changes; nothing is saved
and control goes nowhere (60_exceptions.md R200, R207, R212). There is no return from it to model: the next command
overwrites STATUS (R213). -/
def raise (s : State) (k : ErrorKind) : Host.Outcome State Fault Refusal :=
  .next (s.setStatus k.code)

/-- A success: the results written and `STATUS <- 0` (60_exceptions.md R200). -/
def succeed (s : State) : Host.Outcome State Fault Refusal :=
  .next (s.setStatus statusOk)

/-- How every command ends (60_exceptions.md R200, R207): from the state `s` before it, either all of its results or, on
an error, STATUS only. -/
def commit (s : State) (r : Except ErrorKind State) : Host.Outcome State Fault Refusal :=
  match r with
  | .error k => raise s k
  | .ok t => succeed t

/-- The reset event (70_reset_and_hazards.md R230): the registers as after reset, the buffers' contents a new draw. What
the host has still to do, what it has read, and the parameter STRICT are not the block's state and stay (log 12). -/
def State.resetEvent (s : State) : State :=
  { State.reset with draw := s.draw + 1, strict := s.strict, pending := s.pending, answers := s.answers }

end Sys2Proof.Machine
end

