-- ==== Sys2Proof/Machine/Operands.lean ====
section
/-! DEFINITION. The operand forms of the commands: the record views of the registers and the buffers' meaningful bytes
(10_state.md R42 to R46, R49). -/

namespace Sys2Proof.Machine

/-- `Frame()`: the frame read off the registers. With HASP clear PLEN and PBUF are ignored (10_state.md R32, R49). -/
def State.frame (s : State) : Frame where
  sourceAddr := s.src
  destAddr := s.dst
  msgId := s.msgid
  payload := if s.hasp then some (s.bufBytes .pbuf s.plen.toNat) else none

/-- `Frame() <- f`: an absent payload clears HASP and PLEN and leaves PBUF (10_state.md R49; 92_eei_decisions.md D28). -/
def State.setFrame (s : State) (f : Frame) : State :=
  { s with
    src := f.sourceAddr
    dst := f.destAddr
    msgid := f.msgId
    fctl := presenceBit f.payload.isSome
    plen := BitVec.ofNat 8 (f.payload.getD []).length
    mem := Memory.setBytes s.mem Buf.pbuf.base (f.payload.getD []) }

/-- `Envelope()`: the envelope read off the registers (10_state.md R49). -/
def State.envelope (s : State) : Envelope where
  transactionId := s.tid
  mode := s.mode
  stationKey := s.skey
  signature := s.sig
  innerFrame := if s.hasf then some s.frame else none

/-- The header fields and HASF written (42_envelope.md R156). -/
def State.setHeader (s : State) (tid : Word) (mode : Half) (skey sig : Word) (hasf : Bool) : State :=
  { s with tid := tid, mode := mode, skey := skey, sig := sig, ectl := presenceBit hasf }

/-- `Envelope() <- e`: with no inner frame the frame registers and PBUF stay (42_envelope.md R156). -/
def State.setEnvelope (s : State) (e : Envelope) : State :=
  match e.innerFrame with
  | none => s.setHeader e.transactionId e.mode e.stationKey e.signature false
  | some f => (s.setHeader e.transactionId e.mode e.stationKey e.signature true).setFrame f

/-- `FBUF[0..FLEN-1]` (10_state.md R42, R45). -/
def State.fbufBytes (s : State) : List Byte := s.bufBytes .fbuf s.flen.toNat

/-- `DBUF[0..DLEN-1]` (10_state.md R43, R46). -/
def State.dbufBytes (s : State) : List Byte := s.bufBytes .dbuf s.dlen.toNat

/-- `FBUF[0..len-1] <- bytes; FLEN <- len` (41_framecodec.md R125). -/
def State.setFbuf (s : State) (bytes : List Byte) : State :=
  { s.storeBuf .fbuf bytes with flen := BitVec.ofNat 16 bytes.length }

/-- `DBUF[0..len-1] <- bytes; DLEN <- len` (42_envelope.md R153). -/
def State.setDbuf (s : State) (bytes : List Byte) : State :=
  { s.storeBuf .dbuf bytes with dlen := BitVec.ofNat 16 bytes.length }

/-- `RESULT <- v` (40_blockcipher.md R111). -/
def State.setResult (s : State) (v : Word) : State := { s with result := v }

/-- `CK <- v` (41_framecodec.md R122). -/
def State.setCk (s : State) (v : Byte) : State := { s with ck := v }

/-- `K1 <- k1; K2 <- k2` (42_envelope.md R142). -/
def State.setKeystream (s : State) (ks : Word × Word) : State := { s with k1 := ks.1, k2 := ks.2 }

/-- `SIG <- v` (42_envelope.md R149). -/
def State.setSig (s : State) (v : Word) : State := { s with sig := v }

end Sys2Proof.Machine
end

