-- ==== Sys2Proof/Machine/BlockCipher.lean ====
section
/-! DEFINITION. The BlockCipher unit: the block transform and TRANSFORM (40_blockcipher.md). -/

namespace Sys2Proof.Machine

/-- One round: the new `a` first, then the new `b` from the new `a` and the old `b` (40_blockcipher.md R110). -/
def cipherRound (key : Word) (ab : Word × Word) : Word × Word :=
  let a := 2#32 * ab.1 + 13#32
  (a, key * (a + ab.2))

/-- `n` rounds. -/
def cipherRounds (key : Word) : Nat → Word × Word → Word × Word
  | 0, ab => ab
  | n + 1, ab => cipherRounds key n (cipherRound key ab)

/-- The working copy of `data`: a zero is replaced by 1 (40_blockcipher.md R110). -/
def workingCopy (data : Word) : Word := if data = 0#32 then 1#32 else data

/-- `Transform(key, data)`: four rounds from the working copy `d` and `key * d`; the last sum adds the ORIGINAL `data`
(40_blockcipher.md R110, 90_conflicts.md C1). -/
def transform (key data : Word) : Word :=
  let ab := cipherRounds key 4 (workingCopy data, key * workingCopy data)
  ab.1 + data + ab.2

/-- TRANSFORM: `RESULT <- Transform(KEY, DATA)` (40_blockcipher.md R111). -/
def execTransform (s : State) : Host.Outcome State Fault Refusal :=
  commit s (.ok (s.setResult (transform s.key s.data)))

end Sys2Proof.Machine
end

