-- ==== Sys2Proof/Machine/Checksum.lean ====
section
/-! DEFINITION. The end-around-carry checksum of a frame (41_framecodec.md R120). -/

namespace Sys2Proof.Machine

/-- One byte into the accumulator: the 9-bit sum is compared before it is cut (41_framecodec.md R120; 90_conflicts.md C2). -/
def checksumStep (acc : Nat) (x : Byte) : Nat :=
  if acc + x.toNat > 255 then (acc + x.toNat) % 256 + 1 else acc + x.toNat

/-- The accumulator after the bytes of `input`, from 0 (41_framecodec.md R120; 92_eei_decisions.md D21). -/
def endAroundSum (input : List Byte) : Byte :=
  BitVec.ofNat 8 (input.foldl checksumStep 0)

/-- `Checksum(payload, dest_addr, source_addr, msg_id)`: payload first, then the three header bytes (R120). An absent
payload contributes no bytes. -/
def checksum (payload : Option (List Byte)) (dst src msg : Byte) : Byte :=
  endAroundSum (payload.getD [] ++ [dst, src, msg])

end Sys2Proof.Machine
end

