-- ==== Sys2Proof/WellFormed.lean ====
section
/-! DEFINITION. Which terms of `Instr` keep the length and checksum relations of the wire (30_encoding.md R84 to R91). -/

namespace Sys2Proof

/-- DEDUCED (log 13), safe. The bounds the spec puts on a row's fields. Commands have no field. A short frame's checksum
byte is the checksum of its fields (opcode_table.json; R88). A long frame's length byte counts at least the three header
bytes (R86). The length marker is 0 for a short inner frame and `PL + 3` for a long one (R91). Every header field is
unrestricted (R92). -/
def Instr.wf : Instr → Bool
  | .transform | .cksum | .fenc | .fdec | .kstream | .crypt | .esign | .eser | .edes => true
  | .wireShortFrame dst src msg ck => ck == Machine.checksum none dst src msg
  | .wireLongFrameHead lb _ _ _ => decide (3 ≤ lb.toNat)
  | .wireEnvelopeHeader _ _ _ _ => true
  | .wireEnvelopeBodyHead lm => lm == 0#8 || decide (3 ≤ lm.toNat)

/-- `Instr.wf` as a proposition. -/
abbrev Instr.WellFormed (i : Instr) : Prop := i.wf = true

end Sys2Proof
end

