-- ==== Sys2Proof/Decode.lean ====
section
/-! DEFINITION. Byte order, the decoder of every row of the opcode table, and the encoder (30_encoding.md). -/

namespace Sys2Proof

/-- The `n` low bytes of `v`, least significant first: `le16` and `le32` of 00_scope.md R10. -/
def leBytes : Nat → Nat → List Byte
  | 0, _ => []
  | n + 1, v => BitVec.ofNat 8 v :: leBytes n (v / 256)

/-- The number whose little-endian bytes are given: `u16le` and `u32le` of R10, assembled as in 30_encoding.md R93. -/
def leNat : List Byte → Nat
  | [] => 0
  | b :: bs => b.toNat + 256 * leNat bs

/-- `le16(v)` (00_scope.md R10). -/
def le16 (v : Half) : List Byte := leBytes 2 v.toNat

/-- `le32(v)` (00_scope.md R10). -/
def le32 (v : Word) : List Byte := leBytes 4 v.toNat

/-- `u16le(s)` (00_scope.md R10, 30_encoding.md R93). -/
def u16le (s : List Byte) : Half := BitVec.ofNat 16 (leNat s)

/-- `u32le(s)` (00_scope.md R10, 30_encoding.md R93). -/
def u32le (s : List Byte) : Word := BitVec.ofNat 32 (leNat s)

/-- The first byte of the short form (00_scope.md R7, 30_encoding.md R84). -/
def shortStart : Byte := 0x10#8

/-- The first and fourth byte of the long form (00_scope.md R7, 30_encoding.md R85). -/
def longStart : Byte := 0x68#8

/-- The last byte of every frame (00_scope.md R7, 30_encoding.md R84, R85). -/
def terminator : Byte := 0x16#8

/-- Why words name no row of the opcode table. -/
inductive DecodeError where
  /-- 30_encoding.md R81: a CMD value outside 1 to 9. -/
  | illegalCommand (value : Word)
  /-- The byte count is not the format's. -/
  | wrongLength (fmt : WireFormat)
  /-- A fixed byte of the pattern differs (R84, R85). -/
  | wrongMarker (fmt : WireFormat)
  /-- Bytes 1 and 2 of a long frame differ (R85). -/
  | unequalLengthBytes
  deriving DecidableEq, Repr

/-- The command a CMD value names: the whole word is compared (30_encoding.md R80, R81). -/
def decodeCommand (v : Word) : Except DecodeError Instr :=
  if v = 1#32 then .ok .transform
  else if v = 2#32 then .ok .cksum
  else if v = 3#32 then .ok .fenc
  else if v = 4#32 then .ok .fdec
  else if v = 5#32 then .ok .kstream
  else if v = 6#32 then .ok .crypt
  else if v = 7#32 then .ok .esign
  else if v = 8#32 then .ok .eser
  else if v = 9#32 then .ok .edes
  else .error (.illegalCommand v)

/-- The wire-format row whose pattern the bytes match (30_encoding.md R84, R85, R89, R90). -/
def decodeWire : WireFormat → List Byte → Except DecodeError Instr
  | .shortFrame, [b0, b1, b2, b3, b4, b5] =>
    if b0 = shortStart ∧ b5 = terminator then .ok (.wireShortFrame b1 b2 b3 b4) else .error (.wrongMarker .shortFrame)
  | .longFrameHead, [b0, b1, b2, b3, b4, b5, b6] =>
    if ¬(b0 = longStart ∧ b3 = longStart) then .error (.wrongMarker .longFrameHead)
    else if b1 ≠ b2 then .error .unequalLengthBytes
    else .ok (.wireLongFrameHead b1 b4 b5 b6)
  | .envelopeHeader, [b0, b1, b2, b3, b4, b5, b6, b7, b8, b9, b10, b11, b12, b13] =>
    .ok (.wireEnvelopeHeader (u32le [b0, b1, b2, b3]) (u16le [b4, b5]) (u32le [b6, b7, b8, b9]) (u32le [b10, b11, b12, b13]))
  | .envelopeBodyHead, [b0] => .ok (.wireEnvelopeBodyHead b0)
  | fmt, _ => .error (.wrongLength fmt)

/-- The decoder: total, each refusal named. -/
def decode : Words → Except DecodeError Instr
  | .command v => decodeCommand v
  | .wire fmt bytes => decodeWire fmt bytes

/-- The encoder, from the same tables: CMD values of 30_encoding.md R80, byte layouts of R84, R85, R89, R90. -/
def encode : Instr → Words
  | .transform => .command 1#32
  | .cksum => .command 2#32
  | .fenc => .command 3#32
  | .fdec => .command 4#32
  | .kstream => .command 5#32
  | .crypt => .command 6#32
  | .esign => .command 7#32
  | .eser => .command 8#32
  | .edes => .command 9#32
  | .wireShortFrame dst src msg ck => .wire .shortFrame [shortStart, dst, src, msg, ck, terminator]
  | .wireLongFrameHead lb dst src msg => .wire .longFrameHead [longStart, lb, lb, longStart, dst, src, msg]
  | .wireEnvelopeHeader tid mode skey sig => .wire .envelopeHeader (le32 tid ++ le16 mode ++ le32 skey ++ le32 sig)
  | .wireEnvelopeBodyHead lm => .wire .envelopeBodyHead [lm]

/-- The bytes of a wire row in wire order; a command has none. -/
def wireBytes (i : Instr) : List Byte :=
  match encode i with
  | .command _ => []
  | .wire _ bytes => bytes

/-- The words of an `nbits`-bit table row whose bits are `w`, bit 0 the least significant bit of the first byte. DESIGN
CHOICE (log 16), safe: the formats have different lengths, so the length names the format. -/
def tableWords (nbits w : Nat) : Option Words :=
  if nbits = 32 then some (.command (BitVec.ofNat 32 w))
  else if nbits = 48 then some (.wire .shortFrame (leBytes 6 w))
  else if nbits = 56 then some (.wire .longFrameHead (leBytes 7 w))
  else if nbits = 112 then some (.wire .envelopeHeader (leBytes 14 w))
  else if nbits = 8 then some (.wire .envelopeBodyHead (leBytes 1 w))
  else none

/-- The row an `nbits`-bit word of the opcode table stands for, `none` where the decoder refuses. -/
def decodeTableWord (nbits w : Nat) : Option Instr :=
  match tableWords nbits w with
  | none => none
  | some ws =>
    match decode ws with
    | .ok i => some i
    | .error _ => none

end Sys2Proof
end

