-- ==== Sys2Proof/Machine/FrameCodec.lean ====
section
/-! DEFINITION. The FrameCodec unit: CKSUM, FENC, FDEC (41_framecodec.md). -/

namespace Sys2Proof.Machine

/-- `MAX_PAYLOAD` (00_scope.md R7). -/
abbrev maxPayload : Nat := 240

/-- The checksum of a frame's own fields (41_framecodec.md R120). -/
def Frame.checksum (f : Frame) : Byte :=
  Machine.checksum f.payload f.destAddr f.sourceAddr f.msgId

/-- A frame is encodable when its payload is absent or has at most 240 bytes (41_framecodec.md R123). -/
def Frame.encodable (f : Frame) : Bool :=
  decide ((f.payload.getD []).length ≤ maxPayload)

/-- `FrameEncode(f)` (41_framecodec.md R124; the layouts of 30_encoding.md R84, R85). -/
def frameEncode (f : Frame) : Except ErrorKind (List Byte) :=
  match f.payload with
  | none => .ok [shortStart, f.destAddr, f.sourceAddr, f.msgId, f.checksum, terminator]
  | some p =>
    if p.length > maxPayload then .error .operandRange
    else
      let lb := BitVec.ofNat 8 (p.length + 3)
      .ok ([longStart, lb, lb, longStart, f.destAddr, f.sourceAddr, f.msgId] ++ p ++ [f.checksum, terminator])

/-- Byte `i` of a byte sequence; used below its length only. -/
def byteAt (b : List Byte) (i : Nat) : Byte := b.getD i 0#8

/-- Checks (9) and (10) of 41_framecodec.md R128: the checksum, then the terminator (R130). -/
def checkFields (f : Frame) (ck term : Byte) : Except ErrorKind Frame :=
  if ck ≠ f.checksum then .error .checksumMismatch
  else if term ≠ terminator then .error .framingError
  else .ok f

/-- `FrameDecode(b, STRICT)`: the numbered checks of 41_framecodec.md R128, in its order. -/
def frameDecode (b : List Byte) (strict : Bool) : Except ErrorKind Frame :=
  let n := b.length
  if n = 0 then .error .framingError                                  -- (1)
  else if byteAt b 0 = shortStart then
    if n ≠ 6 then .error .framingError                                -- (2)
    else
      checkFields
        { sourceAddr := byteAt b 2, destAddr := byteAt b 1, msgId := byteAt b 3, payload := none }
        (byteAt b 4) (byteAt b 5)
  else if byteAt b 0 = longStart then
    if n < 9 then .error .framingError                                -- (3)
    else if byteAt b 1 ≠ byteAt b 2 then .error .framingError         -- (4)
    else if byteAt b 3 ≠ longStart then .error .framingError          -- (5)
    else if (n - 9) + 3 ≠ (byteAt b 1).toNat then .error .framingError -- (6)
    else if strict && decide (n - 9 > maxPayload) then .error .framingError -- (7), R131
    else
      checkFields
        { sourceAddr := byteAt b 5, destAddr := byteAt b 4, msgId := byteAt b 6, payload := some ((b.drop 7).take (n - 9)) }
        (byteAt b (n - 2)) (byteAt b (n - 1))
  else .error .framingError                                           -- (8)

/-- CKSUM: `CK <- Checksum(Frame())`, whatever PLEN is (41_framecodec.md R122). -/
def execCksum (s : State) : Host.Outcome State Fault Refusal :=
  commit s (.ok (s.setCk s.frame.checksum))

/-- FENC: `FBUF, FLEN <- FrameEncode(Frame())` (41_framecodec.md R125). -/
def execFenc (s : State) : Host.Outcome State Fault Refusal :=
  commit s (match frameEncode s.frame with
    | .error k => .error k
    | .ok bytes => .ok (s.setFbuf bytes))

/-- FDEC: `Frame() <- FrameDecode(FBUF[0..FLEN-1])`, FramingError for an FLEN above the buffer (41_framecodec.md R129,
R133). -/
def execFdec (s : State) : Host.Outcome State Fault Refusal :=
  commit s (if s.flen.toNat > Buf.fbuf.cap then .error .framingError
    else match frameDecode s.fbufBytes s.strict with
      | .error k => .error k
      | .ok f => .ok (s.setFrame f))

end Sys2Proof.Machine
end

