-- ==== Sys2Proof/Machine/Envelope.lean ====
section
/-! DEFINITION. The Envelope unit: KSTREAM, CRYPT, ESIGN, ESER, EDES (42_envelope.md). -/

namespace Sys2Proof.Machine

/-- `HDR_LEN` (00_scope.md R7). -/
abbrev headerLength : Nat := 14

/-- The mode `INVALID_STATION_KEY` (00_scope.md R7, 30_encoding.md R92). -/
def invalidStationKey : Half := 0x1111#16

/-- `KeystreamWords(skey, tid)` (42_envelope.md R140). -/
def keystreamWords (skey tid : Word) : Word × Word :=
  (transform skey (~~~tid), transform skey tid)

/-- Byte `i` of the keystream of the two words: `k1` for the first eight bytes, `k2` from then on (42_envelope.md R141). -/
def keystreamByteOf (ks : Word × Word) (i : Nat) : Byte :=
  (if i < 8 then ks.1 else ks.2).extractLsb' (8 * (i % 4)) 8

/-- `KeystreamByte(skey, tid, i)` (42_envelope.md R141). -/
def keystreamByte (skey tid : Word) (i : Nat) : Byte :=
  keystreamByteOf (keystreamWords skey tid) i

/-- The bytes `s`, the first of them at keystream index `i`, each XORed with its keystream byte. -/
def xorFrom (ks : Word × Word) : Nat → List Byte → List Byte
  | _, [] => []
  | i, b :: bs => (b ^^^ keystreamByteOf ks i) :: xorFrom ks (i + 1) bs

/-- `Xor(skey, tid, s)` (42_envelope.md R145). -/
def xorKeystream (skey tid : Word) (s : List Byte) : List Byte :=
  xorFrom (keystreamWords skey tid) 0 s

/-- `Signature(password, tid, skey, ck)` (42_envelope.md R148). -/
def signature (password tid skey : Word) (ck : Byte) : Word :=
  transform password (tid + skey + 256#32 + ck.setWidth 32)

/-- The 14 header bytes (30_encoding.md R89). -/
def Envelope.header (e : Envelope) : List Byte :=
  le32 e.transactionId ++ le16 e.mode ++ le32 e.stationKey ++ le32 e.signature

/-- `EnvSerialize(e)` (42_envelope.md R152). -/
def envSerialize (e : Envelope) : Except ErrorKind (List Byte) :=
  if e.mode = invalidStationKey then
    match e.innerFrame with
    | some _ => .error .protocolError
    | none => .ok e.header
  else
    match e.innerFrame with
    | none => .error .protocolError
    | some f =>
      match frameEncode f with
      | .error k => .error k
      | .ok plain =>
        let enc := xorKeystream e.stationKey e.transactionId plain
        .ok (e.header ++ [BitVec.ofNat 8 (enc.length - 6)] ++ enc)

/-- Bytes `i` to `i + n - 1` of a byte sequence. -/
def slice (d : List Byte) (i n : Nat) : List Byte := (d.drop i).take n

/-- The header fields of a datagram of at least 14 bytes, with an inner frame (30_encoding.md R89, R93). -/
def parseHeader (d : List Byte) (inner : Option Frame) : Envelope where
  transactionId := u32le (slice d 0 4)
  mode := u16le (slice d 4 2)
  stationKey := u32le (slice d 6 4)
  signature := u32le (slice d 10 4)
  innerFrame := inner

/-- Check (6) of 42_envelope.md R155: with a password configured, the signature recomputed from the decoded frame. -/
def checkSignature (pwen : Bool) (password : Word) (e : Envelope) (f : Frame) : Except ErrorKind Envelope :=
  if pwen && decide (signature password e.transactionId e.stationKey f.checksum ≠ e.signature) then
    .error .signatureMismatch
  else .ok e

/-- `EnvDeserialize(d, pwen, password, STRICT)`: the numbered checks of 42_envelope.md R155, in its order. The keystream
is that of the datagram's own header. -/
def envDeserialize (d : List Byte) (pwen : Bool) (password : Word) (strict : Bool) : Except ErrorKind Envelope :=
  let n := d.length
  let hdr := parseHeader d none
  if n < headerLength then .error .lengthMismatch                     -- (1)
  else if n = headerLength then
    if strict && decide (hdr.mode ≠ invalidStationKey) then .error .protocolError -- (2), R157
    else .ok hdr
  else if n - 15 ≠ (byteAt d 14).toNat + 6 then .error .lengthMismatch -- (3)
  else if strict && decide (hdr.mode = invalidStationKey) then .error .protocolError -- (4), R157
  else
    match frameDecode (xorKeystream hdr.stationKey hdr.transactionId (d.drop 15)) strict with
    | .error k => .error k                                            -- (5)
    | .ok f => checkSignature pwen password (parseHeader d (some f)) f -- (6)

/-- KSTREAM: `K1, K2 <- KeystreamWords(SKEY, TID)` (42_envelope.md R142). -/
def execKstream (s : State) : Host.Outcome State Fault Refusal :=
  commit s (.ok (s.setKeystream (keystreamWords s.skey s.tid)))

/-- CRYPT: `FBUF[0..FLEN-1]` XORed in place, OperandRange for an FLEN above the buffer (42_envelope.md R146). -/
def execCrypt (s : State) : Host.Outcome State Fault Refusal :=
  commit s (if s.flen.toNat > Buf.fbuf.cap then .error .operandRange
    else .ok (s.storeBuf .fbuf (xorKeystream s.skey s.tid s.fbufBytes)))

/-- ESIGN: `SIG <- Signature(PASSWORD, TID, SKEY, Checksum(Frame()))`, ProtocolError without an inner frame; PWEN is not
read (42_envelope.md R149). -/
def execEsign (s : State) : Host.Outcome State Fault Refusal :=
  commit s (if s.hasf then .ok (s.setSig (signature s.password s.tid s.skey s.frame.checksum))
    else .error .protocolError)

/-- ESER: `DBUF, DLEN <- EnvSerialize(Envelope())` (42_envelope.md R153). -/
def execEser (s : State) : Host.Outcome State Fault Refusal :=
  commit s (match envSerialize s.envelope with
    | .error k => .error k
    | .ok bytes => .ok (s.setDbuf bytes))

/-- EDES: `Envelope() <- EnvDeserialize(DBUF[0..DLEN-1])`, LengthMismatch for a DLEN above the buffer (42_envelope.md
R156, R158 (d)). -/
def execEdes (s : State) : Host.Outcome State Fault Refusal :=
  commit s (if s.dlen.toNat > Buf.dbuf.cap then .error .lengthMismatch
    else match envDeserialize s.dbufBytes s.pwen s.password s.strict with
      | .error k => .error k
      | .ok e => .ok (s.setEnvelope e))

end Sys2Proof.Machine
end

