-- ==== Sys2Proof/Machine/WireFormats.lean ====
section
/-! DEFINITION. The wire-format rows of the opcode table given as commands. Each is "not a command" (opcode_table.json), the
block has nine commands and no other (00_scope.md R2), and a register access of a size other than 4 has "no meaning in
this spec" (20_memory.md R65), so each is refused by name (log 7). -/

namespace Sys2Proof.Machine

/-- WIRE.SHORT_FRAME is not a command (30_encoding.md R84). -/
def execWireShortFrame (_ : State) : Host.Outcome State Fault Refusal :=
  .refused (.notACommand .shortFrame)

/-- WIRE.LONG_FRAME_HEAD is not a command (30_encoding.md R85). -/
def execWireLongFrameHead (_ : State) : Host.Outcome State Fault Refusal :=
  .refused (.notACommand .longFrameHead)

/-- WIRE.ENVELOPE_HEADER is not a command (30_encoding.md R89). -/
def execWireEnvelopeHeader (_ : State) : Host.Outcome State Fault Refusal :=
  .refused (.notACommand .envelopeHeader)

/-- WIRE.ENVELOPE_BODY_HEAD is not a command (30_encoding.md R90). -/
def execWireEnvelopeBodyHead (_ : State) : Host.Outcome State Fault Refusal :=
  .refused (.notACommand .envelopeBodyHead)

end Sys2Proof.Machine
end

