-- ==== Sys2Proof/Machine/Dispatch.lean ====
section
/-! DEFINITION. One arm per row of the opcode table. -/

namespace Sys2Proof.Machine

def exec (i : Instr) (s : State) : Host.Outcome State Fault Refusal :=
  match i with
  | .transform => Sys2Proof.Machine.execTransform s
  | .cksum => Sys2Proof.Machine.execCksum s
  | .fenc => Sys2Proof.Machine.execFenc s
  | .fdec => Sys2Proof.Machine.execFdec s
  | .kstream => Sys2Proof.Machine.execKstream s
  | .crypt => Sys2Proof.Machine.execCrypt s
  | .esign => Sys2Proof.Machine.execEsign s
  | .eser => Sys2Proof.Machine.execEser s
  | .edes => Sys2Proof.Machine.execEdes s
  | .wireShortFrame _ _ _ _ => Sys2Proof.Machine.execWireShortFrame s
  | .wireLongFrameHead _ _ _ _ => Sys2Proof.Machine.execWireLongFrameHead s
  | .wireEnvelopeHeader _ _ _ _ => Sys2Proof.Machine.execWireEnvelopeHeader s
  | .wireEnvelopeBodyHead _ => Sys2Proof.Machine.execWireEnvelopeBodyHead s

end Sys2Proof.Machine
end

