-- ==== Sys2Proof/Machine/HostPort.lean ====
section
/-! DEFINITION. The host's accesses to the window: register reads and writes, buffer bytes, and the CMD write that runs a
command (20_memory.md R60 to R66, 30_encoding.md R80, R81). -/

namespace Sys2Proof.Machine

/-- What a host read of a register returns: its value widened with zeros, zero for CMD (20_memory.md R61). -/
def State.readReg (s : State) : Reg → Word
  | .cmd => 0#32
  | .status => s.status.setWidth 32
  | .ctrl => s.ctrl.setWidth 32
  | .password => s.password
  | .key => s.key
  | .data => s.data
  | .result => s.result
  | .src => s.src.setWidth 32
  | .dst => s.dst.setWidth 32
  | .msgid => s.msgid.setWidth 32
  | .fctl => s.fctl.setWidth 32
  | .plen => s.plen.setWidth 32
  | .ck => s.ck.setWidth 32
  | .tid => s.tid
  | .mode => s.mode.setWidth 32
  | .skey => s.skey
  | .sig => s.sig
  | .ectl => s.ectl.setWidth 32
  | .k1 => s.k1
  | .k2 => s.k2
  | .flen => s.flen.setWidth 32
  | .dlen => s.dlen.setWidth 32

/-- A host write of `v` to a register other than CMD: the register's low bits of `v`; an RO register ignores it
(20_memory.md R64). CMD stores nothing (10_state.md R22; log 11). -/
def State.writeReg (s : State) (r : Reg) (v : Word) : State :=
  match r with
  | .cmd => s
  | .status => s
  | .ctrl => { s with ctrl := v.setWidth 1 }
  | .password => { s with password := v }
  | .key => { s with key := v }
  | .data => { s with data := v }
  | .result => s
  | .src => { s with src := v.setWidth 8 }
  | .dst => { s with dst := v.setWidth 8 }
  | .msgid => { s with msgid := v.setWidth 8 }
  | .fctl => { s with fctl := v.setWidth 1 }
  | .plen => { s with plen := v.setWidth 8 }
  | .ck => s
  | .tid => { s with tid := v }
  | .mode => { s with mode := v.setWidth 16 }
  | .skey => { s with skey := v }
  | .sig => { s with sig := v }
  | .ectl => { s with ectl := v.setWidth 1 }
  | .k1 => s
  | .k2 => s
  | .flen => { s with flen := v.setWidth 16 }
  | .dlen => { s with dlen := v.setWidth 16 }

/-- What an access of `size` bytes at `addr` reaches. -/
inductive Target where
  | register (r : Reg)
  | bufferByte (addr : Nat)
  | outside
  | meaningless (why : Refusal)
  deriving DecidableEq, Repr

/-- The place an access reaches, or the reason it has no meaning (20_memory.md R60 to R65; the order of the reasons is the
model's, log 9). -/
def target (addr size : Nat) : Target :=
  if windowSize ≤ addr then .outside
  else if addr < registerRegionEnd then
    if size ≠ 4 then .meaningless .registerAccessSize
    else if addr % 4 ≠ 0 then .meaningless .misalignedRegister
    else match regAt addr with
      | some r => .register r
      | none => .meaningless .reservedOffset
  else if inBuffer addr then
    if size ≠ 1 then .meaningless .bufferAccessSize else .bufferByte addr
  else .meaningless .reservedOffset

/-- `MemRead(addr, size)`: the value goes to the host and the block does not change (20_memory.md R61, R62, R69). -/
def hostRead (s : State) (addr size : Nat) : Host.Outcome State Fault Refusal :=
  match target addr size with
  | .register r => .next (s.answer (s.readReg r))
  | .bufferByte a => .next (s.answer ((s.readByte a).setWidth 32))
  | .outside => .fault .outsideWindow
  | .meaningless why => .refused why

/-- A write of `size` bytes to CMD: the command its value names runs whole; any other 32-bit value is IllegalCommand
(30_encoding.md R80, R81). A size other than 4 has no meaning (20_memory.md R65) and is refused, by the name of the
wire-format row where the bits are one's (log 7). -/
def writeCmd (s : State) (size value : Nat) : Host.Outcome State Fault Refusal :=
  match decodeTableWord (8 * size) value with
  | some i => exec i s
  | none => if size = 4 then raise s .illegalCommand else .refused .registerAccessSize

/-- `MemWrite(addr, size, value)` (20_memory.md R62, R64), the value cut to the access's size (log 10). -/
def hostWrite (s : State) (addr size value : Nat) : Host.Outcome State Fault Refusal :=
  if addr = Reg.cmd.offset then writeCmd s size value
  else
    match target addr size with
    | .register r => .next (s.writeReg r (BitVec.ofNat 32 value))
    | .bufferByte a => .next (s.writeByte a (BitVec.ofNat 8 value))
    | .outside => .fault .outsideWindow
    | .meaningless why => .refused why

/-- One event from outside, whole (20_memory.md R69, R70; 70_reset_and_hazards.md R230). -/
def hostEvent (s : State) : HostEvent → Host.Outcome State Fault Refusal
  | .read addr size => hostRead s addr size
  | .write addr size value => hostWrite s addr size value
  | .reset => .next s.resetEvent

end Sys2Proof.Machine
end

