-- ==== Sys2Proof/Machine/Step.lean ====
section
/-! DEFINITION. One step: the host's next access, whole. -/

namespace Sys2Proof.Machine

/-- One step performs the first of the host's pending accesses, a CMD write together with the whole command it starts
(20_memory.md R70). With none pending the block "simply holds its state" (60_exceptions.md R216; log 6). -/
def step (s : State) : Host.Outcome State Fault Refusal :=
  match s.pending with
  | [] => .next s
  | e :: rest => hostEvent (s.setPending rest) e

/-- The instruction's bits as the host's next access: a write of them to CMD (log 4). -/
def State.withFetchWord (s : State) (nbits w : Nat) : State :=
  s.setPending (.write Reg.cmd.offset (nbits / 8) w :: s.pending)

end Sys2Proof.Machine
end

