-- ==== Sys2Proof/Machine/HostNotation.lean ====
section
/-! DEFINITION. The host-sequence notation, "the assembler" of the spec (30_encoding.md R83): each line as the accesses it
expands to. -/

namespace Sys2Proof.Machine

/-- A buffer's length register (30_encoding.md R83). -/
def Buf.lengthReg : Buf → Reg
  | .pbuf => .plen
  | .fbuf => .flen
  | .dbuf => .dlen

/-- `WR <REG>, <value>`. -/
def lineWr (r : Reg) (v : Nat) : List HostEvent := [.write r.offset 4 v]

/-- `RD <REG>`. -/
def lineRd (r : Reg) : List HostEvent := [.read r.offset 4]

/-- `WRB <BUF>[i], <byte>`. -/
def lineWrb (b : Buf) (i : Nat) (v : Byte) : List HostEvent := [.write (b.base + i) 1 v.toNat]

/-- `RDB <BUF>[i]`. -/
def lineRdb (b : Buf) (i : Nat) : List HostEvent := [.read (b.base + i) 1]

/-- `CMD <mnemonic>`: a write of the command's value to CMD; a wire-format row has no such line. -/
def lineCmd (i : Instr) : List HostEvent :=
  match encode i with
  | .command v => lineWr .cmd v.toNat
  | .wire _ _ => []

/-- The `WRB` lines of bytes from index `i` up. -/
def lineWrbs (b : Buf) : Nat → List Byte → List HostEvent
  | _, [] => []
  | i, v :: vs => lineWrb b i v ++ lineWrbs b (i + 1) vs

/-- `LOAD <BUF>, <bytes>`: the bytes, then their number to the buffer's length register. -/
def lineLoad (b : Buf) (bytes : List Byte) : List HostEvent :=
  lineWrbs b 0 bytes ++ lineWr b.lengthReg bytes.length

/-- `FRAME src, dst, msg, <payload | none>`. -/
def lineFrame (src dst msg : Byte) (payload : Option (List Byte)) : List HostEvent :=
  lineWr .src src.toNat ++ lineWr .dst dst.toNat ++ lineWr .msgid msg.toNat ++
    match payload with
    | none => lineWr .fctl 0
    | some p => lineWr .fctl 1 ++ lineLoad .pbuf p

end Sys2Proof.Machine
end

