-- ==== Sys2Proof/Safety.lean ====
section
/-! DEFINITION. What a state of the block must satisfy, and what counts as a safe run, in the terms the statements use. -/

namespace Sys2Proof.Machine

/-- What holds of every state the block can be in: the buffers' contents are in their canonical form and inside the three
buffers (20_memory.md R62; 92_eei_decisions.md D6: "no command can index outside a buffer"), and STATUS names an outcome
(10_state.md R23: "Values 8 to 255 never appear"). -/
def State.Inv (s : State) : Prop :=
  Memory.wf s.mem ∧ s.status.toNat ≤ 7

/-- The accesses the spec gives a meaning: 4 bytes at a multiple of 4 from 0x000 to 0x054, or 1 byte of a buffer
(20_memory.md R61, R62). The host is required to make no other (R65). -/
def conformingAccess (addr size : Nat) : Bool :=
  (size == 4 && addr % 4 == 0 && decide (addr ≤ 0x054)) ||
    (size == 1 && (Buf.pbuf.holds addr || Buf.fbuf.holds addr || Buf.dbuf.holds addr))

/-- A host event the spec gives a meaning (20_memory.md R65; 70_reset_and_hazards.md R230). -/
def HostEvent.conforming : HostEvent → Bool
  | .read addr size => conformingAccess addr size
  | .write addr size _ => conformingAccess addr size
  | .reset => true

/-- The bytes of a buffer below its length `n`, none outside the buffer: `BUF[0..min(n, cap)-1]` (20_memory.md R74). -/
def Buf.below (b : Buf) (n a : Nat) : Prop :=
  b.base ≤ a ∧ a < b.base + min n b.cap

/-- The bytes of PBUF, FBUF and DBUF that the length registers call meaningful (10_state.md R44 to R46): the most a command
may read (20_memory.md R74). -/
def State.belowLength (s : State) (a : Nat) : Prop :=
  Buf.pbuf.below s.plen.toNat a ∨ Buf.fbuf.below s.flen.toNat a ∨ Buf.dbuf.below s.dlen.toNat a

/-- A run is safe when every access of it has a meaning, so that it neither faults nor is refused. -/
def safeRun (events : List HostEvent) : Prop :=
  ∀ e ∈ events, e.conforming = true

end Sys2Proof.Machine
end

