-- ==== Sys2Proof/Certificates/Slice0/Obligations.lean ====
section
/-! DEFINITION. The statements for the provers. Each docstring names the rule of spec/ it formalises. -/

open Sys2Proof Sys2Proof.Machine

/-! ### Encodings -/

/-- 30_encoding.md R80, R84, R85, R89, R90: the decoder reads back every row the encoder writes, at every field value. -/
def Obligations.DecodeOfEncodeIsTheRow : Prop :=
  ∀ i : Instr, decode (encode i) = .ok i

/-- R80, R84, R85, R89, R90: each word that decodes is the one the encoder writes for its row. -/
def Obligations.EncodeOfDecodeIsTheWords : Prop :=
  ∀ (w : Words) (i : Instr), decode w = .ok i → encode i = w

/-- 30_encoding.md R80, the table: the value of each of the nine commands, the whole word compared, and no other value
names a command. -/
def Obligations.CommandValuesAreTheNineOfTheTable : Prop :=
  ∀ (v : Word) (i : Instr), decodeCommand v = .ok i ↔
    (v = 1#32 ∧ i = .transform) ∨ (v = 2#32 ∧ i = .cksum) ∨ (v = 3#32 ∧ i = .fenc) ∨ (v = 4#32 ∧ i = .fdec) ∨
    (v = 5#32 ∧ i = .kstream) ∨ (v = 6#32 ∧ i = .crypt) ∨ (v = 7#32 ∧ i = .esign) ∨ (v = 8#32 ∧ i = .eser) ∨
    (v = 9#32 ∧ i = .edes)

/-- The opcode table: words written out from 30_encoding.md R80, R84, R85, R89, R90 decode to their rows. That the number
of bits names the format, and that a wire row's first byte stands in the lowest bits, is the model's choice (log 16). -/
def Obligations.TableWordsDecodeToTheirRows : Prop :=
  decodeTableWord 32 0x00000001 = some .transform ∧
  decodeTableWord 32 0x00000004 = some .fdec ∧
  decodeTableWord 32 0x00000009 = some .edes ∧
  decodeTableWord 32 0x00000101 = none ∧
  decodeTableWord 48 0x166D4D1F0110 = some (.wireShortFrame 0x01#8 0x1F#8 0x4D#8 0x6D#8) ∧
  decodeTableWord 56 0x4D1F01680F0F68 = some (.wireLongFrameHead 0x0F#8 0x01#8 0x1F#8 0x4D#8) ∧
  decodeTableWord 112 0x013DEDE6A5A5F00D111100000001 =
    some (.wireEnvelopeHeader 0x00000001#32 0x1111#16 0xA5A5F00D#32 0x013DEDE6#32) ∧
  decodeTableWord 8 0x0F = some (.wireEnvelopeBodyHead 0x0F#8)

/-- R84, R85, R89, R90: what FrameEncode and EnvSerialize emit are the table's wire formats. -/
def Obligations.EncodersEmitTheTableFormats : Prop :=
  (∀ f : Frame, f.payload = none →
    frameEncode f = .ok (wireBytes (.wireShortFrame f.destAddr f.sourceAddr f.msgId f.checksum))) ∧
  (∀ (f : Frame) (p b : List Byte), f.payload = some p → frameEncode f = .ok b →
    b.take 7 = wireBytes (.wireLongFrameHead (BitVec.ofNat 8 (p.length + 3)) f.destAddr f.sourceAddr f.msgId) ∧
    (b.drop 7).take p.length = p) ∧
  (∀ (e : Envelope) (d : List Byte), envSerialize e = .ok d →
    d.take 14 = wireBytes (.wireEnvelopeHeader e.transactionId e.mode e.stationKey e.signature)) ∧
  (∀ (e : Envelope) (f : Frame) (b d : List Byte),
    e.innerFrame = some f → frameEncode f = .ok b → envSerialize e = .ok d →
    (d.drop 14).take 1 = wireBytes (.wireEnvelopeBodyHead (BitVec.ofNat 8 (b.length - 6))) ∧
    d.drop 15 = xorKeystream e.stationKey e.transactionId b)

/-! ### The step -/

/-- 10_state.md R21, R22, for a write of 4 bytes and a value below 2^32: a CMD write runs the command its value names, on
the state with that access done. For other sizes, which 20_memory.md R65 gives no meaning, that the step is `exec` of the
wire row (a refusal by its name) is the model's choice (log 7), and so is the cut of a larger value (log 10). -/
def Obligations.StepRunsTheDecodedInstruction : Prop :=
  ∀ (s : State) (rest : List HostEvent) (n v : Nat) (i : Instr),
    s.pending = .write 0x000 n v :: rest → decodeTableWord (8 * n) v = some i →
    step s = exec i { s with pending := rest }

/-- Log 4: the word placed where the step takes its next access is the instruction the step runs. -/
def Obligations.FetchWordIsRunByTheNextStep : Prop :=
  ∀ (s : State) (nbits w : Nat) (i : Instr),
    decodeTableWord nbits w = some i → step (s.withFetchWord nbits w) = exec i s

/-- 60_exceptions.md R216: with no access pending the block holds its state. -/
def Obligations.IdleBlockHoldsItsState : Prop :=
  ∀ s : State, s.pending = [] → step s = .next s

/-- 30_encoding.md R81: every CMD value but 1 to 9 sets STATUS to 7 and changes nothing else. -/
def Obligations.IllegalCommandSetsStatusSeven : Prop :=
  ∀ (s : State) (rest : List HostEvent) (v : Nat), v < 2 ^ 32 → v = 0 ∨ 10 ≤ v →
    s.pending = .write 0x000 4 v :: rest →
    step s = .next { s with pending := rest, status := 7#8 }

/-- 60_exceptions.md R213: the next command, whatever it is, an illegal one included, overwrites STATUS, and no command
reads the old one. -/
def Obligations.StatusIsNotSticky : Prop :=
  ∀ (s : State) (rest : List HostEvent) (v : Nat) (old : BitVec 8),
    s.pending = .write 0x000 4 v :: rest → step { s with status := old } = step s

/-- 60_exceptions.md R200, R207: a command always ends, with STATUS 0 or with an error kind's code and nothing else
changed. -/
def Obligations.CommandsEndInSuccessOrChangeStatusOnly : Prop :=
  ∀ (i : Instr) (s : State), i.isCommand = true →
    ∃ t, exec i s = .next t ∧ (t.status = 0#8 ∨ ∃ k : ErrorKind, t = { s with status := k.code })

/-- 00_scope.md R2, the opcode table ("not a command"; log 7): a wire-format row given as a command is refused by name. -/
def Obligations.WireFormatRowsAreNotCommands : Prop :=
  (∀ (s : State) (d a m c : Byte), exec (.wireShortFrame d a m c) s = .refused (.notACommand .shortFrame)) ∧
  (∀ (s : State) (l d a m : Byte), exec (.wireLongFrameHead l d a m) s = .refused (.notACommand .longFrameHead)) ∧
  (∀ (s : State) (t k g : Word) (o : Half),
    exec (.wireEnvelopeHeader t o k g) s = .refused (.notACommand .envelopeHeader)) ∧
  (∀ (s : State) (n : Byte), exec (.wireEnvelopeBodyHead n) s = .refused (.notACommand .envelopeBodyHead))

/-! ### Invariant, reset, runs -/

/-- 10_state.md R23, R44 to R46; 92_eei_decisions.md D6: every step keeps STATUS's range and the buffers'
form: written offsets inside the buffers, in the model's canonical order (log 1). -/
def Obligations.StepKeepsTheInvariant : Prop :=
  ∀ s t : State, s.Inv → step s = .next t → t.Inv

/-- 10_state.md R47: the reset state has the invariant. -/
def Obligations.ResetMeetsTheInvariant : Prop :=
  State.reset.Inv

/-- 10_state.md R47: every register reads zero and no buffer byte has a value that a host or a command gave it
(the model's form of "unspecified", log 1). -/
def Obligations.ResetClearsRegistersAndWritesNoByte : Prop :=
  (∀ r : Reg, State.reset.readReg r = 0#32) ∧ ∀ a : Nat, Memory.get? State.reset.mem a = none

/-- 70_reset_and_hazards.md R230, as an event (log 12): every register zero, every buffer byte a value of a new draw, and
the model's own fields as the log entry says. -/
def Obligations.ResetEventClearsTheBlock : Prop :=
  ∀ (s : State) (rest : List HostEvent), s.pending = .reset :: rest →
    ∃ t, step s = .next t ∧ (∀ r : Reg, t.readReg r = 0#32) ∧
      (∀ a : Nat, t.readByte a = Config.unwrittenByte (s.draw + 1) a) ∧
      t.pending = rest ∧ t.answers = s.answers ∧ t.strict = s.strict

/-- 70_reset_and_hazards.md R231: what each command gives straight after reset, the whole next state. -/
def Obligations.CommandsStraightAfterReset : Prop :=
  exec .transform State.reset = .next { State.reset with result := 0xD3#32 } ∧
  exec .cksum State.reset = .next State.reset ∧
  (∃ t, exec .fenc State.reset = .next t ∧ t = { State.reset with flen := 6#16, mem := t.mem } ∧
    t.bufBytes .fbuf 6 = [0x10#8, 0x00#8, 0x00#8, 0x00#8, 0x00#8, 0x16#8] ∧
    ∀ a, ¬(0x200 ≤ a ∧ a < 0x206) → t.readByte a = State.reset.readByte a) ∧
  exec .fdec State.reset = .next { State.reset with status := 1#8 } ∧
  exec .kstream State.reset = .next { State.reset with k1 := 0xB2#32, k2 := 0xD3#32 } ∧
  exec .crypt State.reset = .next State.reset ∧
  exec .esign State.reset = .next { State.reset with status := 5#8 } ∧
  exec .eser State.reset = .next { State.reset with status := 5#8 } ∧
  exec .edes State.reset = .next { State.reset with status := 4#8 }

/-- 60_exceptions.md R200, 20_memory.md R65, R70, 70_reset_and_hazards.md R243: a run of accesses that have a meaning
goes to its last access without a stop, whatever they are. -/
def Obligations.ConformingRunReachesItsEnd : Prop :=
  ∀ s : State, safeRun s.pending →
    ∃ t, Host.Core.run Sys2Proof.core s.pending.length s = .next t ∧ t.pending = [] ∧ t.strict = s.strict

/-! ### The host's accesses -/

/-- 20_memory.md R61, R63, R64: the registers' offsets, widths and access types; a write to an RW register stores the low
bits of its width and changes nothing else; a write to an RO register has no effect at all. Every offset is a number of
R63's table, so the address map is stated, not assumed. -/
def Obligations.RegisterWritesStoreTheLowBits : Prop :=
  (∀ r : Reg, (r.offset, r.width, r.access) =
    match r with
    | .cmd => (0x000, 32, .wo) | .status => (0x004, 8, .ro) | .ctrl => (0x008, 1, .rw) | .password => (0x00C, 32, .rw)
    | .key => (0x010, 32, .rw) | .data => (0x014, 32, .rw) | .result => (0x018, 32, .ro) | .src => (0x01C, 8, .rw)
    | .dst => (0x020, 8, .rw) | .msgid => (0x024, 8, .rw) | .fctl => (0x028, 1, .rw) | .plen => (0x02C, 8, .rw)
    | .ck => (0x030, 8, .ro) | .tid => (0x034, 32, .rw) | .mode => (0x038, 16, .rw) | .skey => (0x03C, 32, .rw)
    | .sig => (0x040, 32, .rw) | .ectl => (0x044, 1, .rw) | .k1 => (0x048, 32, .ro) | .k2 => (0x04C, 32, .ro)
    | .flen => (0x050, 16, .rw) | .dlen => (0x054, 16, .rw)) ∧
  ∀ (s : State) (rest : List HostEvent) (v : Nat), v < 2 ^ 32 →
    (∀ (a : Nat) (t : State), (a, t) ∈ ([(0x008, { s with pending := rest, ctrl := BitVec.ofNat 1 v }),
        (0x00C, { s with pending := rest, password := BitVec.ofNat 32 v }),
        (0x010, { s with pending := rest, key := BitVec.ofNat 32 v }),
        (0x014, { s with pending := rest, data := BitVec.ofNat 32 v }),
        (0x01C, { s with pending := rest, src := BitVec.ofNat 8 v }),
        (0x020, { s with pending := rest, dst := BitVec.ofNat 8 v }),
        (0x024, { s with pending := rest, msgid := BitVec.ofNat 8 v }),
        (0x028, { s with pending := rest, fctl := BitVec.ofNat 1 v }),
        (0x02C, { s with pending := rest, plen := BitVec.ofNat 8 v }),
        (0x034, { s with pending := rest, tid := BitVec.ofNat 32 v }),
        (0x038, { s with pending := rest, mode := BitVec.ofNat 16 v }),
        (0x03C, { s with pending := rest, skey := BitVec.ofNat 32 v }),
        (0x040, { s with pending := rest, sig := BitVec.ofNat 32 v }),
        (0x044, { s with pending := rest, ectl := BitVec.ofNat 1 v }),
        (0x050, { s with pending := rest, flen := BitVec.ofNat 16 v }),
        (0x054, { s with pending := rest, dlen := BitVec.ofNat 16 v })] : List (Nat × State)) →
      s.pending = .write a 4 v :: rest → step s = .next t) ∧
    ∀ a ∈ [0x004, 0x018, 0x030, 0x048, 0x04C],
      s.pending = .write a 4 v :: rest → step s = .next { s with pending := rest }

/-- 20_memory.md R61, R63, R69: a read at each register's offset returns that register's field widened with zeros, zero for
CMD, and changes nothing in the block. That the value goes to the head of `answers` is the model's choice (log 5). -/
def Obligations.RegisterReadsReturnTheWidenedValue : Prop :=
  ∀ (s : State) (rest : List HostEvent),
    ∀ (a : Nat) (w : Word), (a, w) ∈ ([(0x000, 0#32), (0x004, s.status.setWidth 32), (0x008, s.ctrl.setWidth 32),
        (0x00C, s.password),
        (0x010, s.key), (0x014, s.data), (0x018, s.result), (0x01C, s.src.setWidth 32), (0x020, s.dst.setWidth 32),
        (0x024, s.msgid.setWidth 32), (0x028, s.fctl.setWidth 32), (0x02C, s.plen.setWidth 32),
        (0x030, s.ck.setWidth 32), (0x034, s.tid), (0x038, s.mode.setWidth 32), (0x03C, s.skey), (0x040, s.sig),
        (0x044, s.ectl.setWidth 32), (0x048, s.k1), (0x04C, s.k2), (0x050, s.flen.setWidth 32),
        (0x054, s.dlen.setWidth 32)] : List (Nat × Word)) →
      s.pending = .read a 4 :: rest → step s = .next { s with pending := rest, answers := w :: s.answers }

/-- 20_memory.md R62, R69: PBUF, FBUF and DBUF are the 256, 261 and 276 bytes from 0x100, 0x200 and 0x400; a byte write
stores its byte and no length; a byte read returns the stored byte. That the byte goes widened to 32 bits to the head of
`answers` is the model's choice (log 5). -/
def Obligations.BufferBytesAreWrittenAndReadOneByOne : Prop :=
  ∀ (b : Buf) (base cap : Nat),
    (b, base, cap) ∈ ([(.pbuf, 0x100, 256), (.fbuf, 0x200, 261), (.dbuf, 0x400, 276)] : List (Buf × Nat × Nat)) →
    b.base = base ∧ b.cap = cap ∧
    ∀ (s : State) (rest : List HostEvent) (i : Nat), i < cap →
      (∀ v : Nat, v < 256 → s.pending = .write (base + i) 1 v :: rest →
        ∃ t, step s = .next t ∧ t = { s with pending := rest, mem := t.mem } ∧
          t.bufByte b i = BitVec.ofNat 8 v ∧ ∀ a, a ≠ base + i → t.readByte a = s.readByte a) ∧
      (s.pending = .read (base + i) 1 :: rest →
        step s = .next { s with pending := rest, answers := (s.bufByte b i).setWidth 32 :: s.answers })

/-- 20_memory.md R65: an access to a reserved offset, misaligned, or of the wrong size is given no step. -/
def Obligations.AccessesWithoutMeaningAreRefused : Prop :=
  ∀ (s : State) (rest : List HostEvent) (a n : Nat),
    (a < 0x100 ∧ (n ≠ 4 ∨ a % 4 ≠ 0 ∨ 0x058 ≤ a)) ∨
    (0x100 ≤ a ∧ a < 0x305 ∧ n ≠ 1) ∨ (0x400 ≤ a ∧ a < 0x514 ∧ n ≠ 1) ∨
    (0x305 ≤ a ∧ a < 0x400) ∨ (0x514 ≤ a ∧ a < 0x800) →
    (s.pending = .read a n :: rest → ∃ why, step s = .refused why) ∧
    (∀ v : Nat, s.pending = .write a n v :: rest → ∃ why, step s = .refused why)

/-- 20_memory.md R60 and log 8: the model faults on an access at or above the window's end, and on nothing else. -/
def Obligations.OnlyAccessesOutsideTheWindowFault : Prop :=
  ∀ s : State, (∃ r, step s = .fault r) ↔
    ∃ (a n : Nat) (rest : List HostEvent), 0x800 ≤ a ∧
      (s.pending = .read a n :: rest ∨ ∃ v : Nat, s.pending = .write a n v :: rest)

/-! ### What each command may change, over all commands -/

/-- 10_state.md R24 to R43, 20_memory.md R74: a command writes only the registers its row lists. -/
def Obligations.RegistersAreWrittenOnlyByTheirCommands : Prop :=
  ∀ (i : Instr) (s t : State), exec i s = .next t →
    t.ctrl = s.ctrl ∧ t.password = s.password ∧ t.key = s.key ∧ t.data = s.data ∧
    (i ≠ .transform → t.result = s.result) ∧ (i ≠ .cksum → t.ck = s.ck) ∧
    (i ≠ .kstream → t.k1 = s.k1 ∧ t.k2 = s.k2) ∧ (i ≠ .fenc → t.flen = s.flen) ∧ (i ≠ .eser → t.dlen = s.dlen) ∧
    (i ≠ .esign → i ≠ .edes → t.sig = s.sig) ∧
    (i ≠ .edes → t.tid = s.tid ∧ t.mode = s.mode ∧ t.skey = s.skey ∧ t.ectl = s.ectl) ∧
    (i ≠ .fdec → i ≠ .edes →
      t.src = s.src ∧ t.dst = s.dst ∧ t.msgid = s.msgid ∧ t.fctl = s.fctl ∧ t.plen = s.plen) ∧
    t.draw = s.draw ∧ t.strict = s.strict ∧ t.pending = s.pending ∧ t.answers = s.answers

/-- 10_state.md R44 to R46, 20_memory.md R75: PBUF is written by FDEC and EDES only, FBUF by FENC and CRYPT only, DBUF by
ESER only, and no command writes outside the three buffers. -/
def Obligations.BuffersAreWrittenOnlyByTheirCommands : Prop :=
  ∀ (i : Instr) (s t : State) (a : Nat), exec i s = .next t →
    (i ≠ .fdec → i ≠ .edes → Buf.pbuf.holds a = true → t.readByte a = s.readByte a) ∧
    (i ≠ .fenc → i ≠ .crypt → Buf.fbuf.holds a = true → t.readByte a = s.readByte a) ∧
    (i ≠ .eser → Buf.dbuf.holds a = true → t.readByte a = s.readByte a) ∧
    (inBuffer a = false → t.readByte a = s.readByte a)

/-- 20_memory.md R66, R74: no command reads a buffer byte at or above the buffer's length register, nor, where the register
exceeds the buffer, a byte outside it. Writing such a byte before the command changes nothing the command does; it changes
at most that byte itself. -/
def Obligations.BytesAboveTheLengthsAreNotRead : Prop :=
  ∀ (i : Instr) (s t : State) (a : Nat) (v : Byte), ¬ s.belowLength a → exec i s = .next t →
    ∃ u, exec i (s.writeByte a v) = .next u ∧ u = { t with mem := u.mem } ∧
      ∀ a', a' ≠ a → u.readByte a' = t.readByte a'

/-- 10_state.md R25: without a configured password EDES does not read PASSWORD. -/
def Obligations.EdesIgnoresPasswordWhenNoneIsConfigured : Prop :=
  ∀ (s t : State) (p : Word), s.ctrl = 0#1 → exec .edes s = .next t →
    exec .edes { s with password := p } = .next { t with password := p }

/-! ### BlockCipher -/

/-- 40_blockcipher.md R110, R111: TRANSFORM's result, the rounds written out, and nothing else changed. -/
def Obligations.TransformCommandWritesResult : Prop :=
  ∀ s : State,
    let d : Word := if s.data = 0#32 then 1#32 else s.data
    let b0 := s.key * d
    let a1 := 2#32 * d + 13#32
    let b1 := s.key * (a1 + b0)
    let a2 := 2#32 * a1 + 13#32
    let b2 := s.key * (a2 + b1)
    let a3 := 2#32 * a2 + 13#32
    let b3 := s.key * (a3 + b2)
    let a4 := 2#32 * a3 + 13#32
    let b4 := s.key * (a4 + b3)
    exec .transform s = .next { s with result := a4 + s.data + b4, status := 0#8 }

/-- 40_blockcipher.md R112: computing over unbounded naturals and reducing once gives the same result. -/
def Obligations.TransformMayReduceOnce : Prop :=
  ∀ key data : Word,
    let d : Nat := if data.toNat = 0 then 1 else data.toNat
    let b0 := key.toNat * d
    let a1 := 2 * d + 13
    let b1 := key.toNat * (a1 + b0)
    let a2 := 2 * a1 + 13
    let b2 := key.toNat * (a2 + b1)
    let a3 := 2 * a2 + 13
    let b3 := key.toNat * (a3 + b2)
    let a4 := 2 * a3 + 13
    let b4 := key.toNat * (a4 + b3)
    (transform key data).toNat = (a4 + data.toNat + b4) % 2 ^ 32

/-- 40_blockcipher.md R113, R114: the zero law, and the closed forms in the key and the working copy. -/
def Obligations.TransformClosedForms : Prop :=
  (∀ k : Word, transform k 0#32 = transform k 1#32 - 1#32) ∧
  (∀ k data : Word, data ≠ 0#32 →
    transform k data = (16#32 * data + 195#32) + data +
      (k * (16#32 * data + 195#32) + k * k * (8#32 * data + 91#32) + k * k * k * (4#32 * data + 39#32) +
        k * k * k * k * (2#32 * data + 13#32) + k * k * k * k * k * data)) ∧
  (∀ data : Word, data ≠ 0#32 →
    transform 0#32 data = 17#32 * data + 195#32 ∧ transform 1#32 data = 48#32 * data + 533#32)

/-! ### FrameCodec -/

/-- 41_framecodec.md R121 (a), (b): zero exactly for all-zero input, else the plain sum modulo 255 with 255 for 0. -/
def Obligations.ChecksumIsTheSumModulo255 : Prop :=
  ∀ l : List Byte,
    (endAroundSum l).toNat =
      if (l.map BitVec.toNat).sum = 0 then 0 else ((l.map BitVec.toNat).sum - 1) % 255 + 1

/-- 41_framecodec.md R121 (c): the checksum does not depend on the order of the input bytes. -/
def Obligations.ChecksumIgnoresByteOrder : Prop :=
  ∀ l l' : List Byte, l.Perm l' → endAroundSum l = endAroundSum l'

/-- 41_framecodec.md R121 (d): every change of one byte is caught but 00 to FF or back, which is caught only when every
other byte is zero. -/
def Obligations.ChecksumCatchesOneByteChanges : Prop :=
  ∀ (l r : List Byte) (x y : Byte), x ≠ y →
    ((x = 0x00#8 ∧ y = 0xFF#8 ∨ x = 0xFF#8 ∧ y = 0x00#8) →
      (endAroundSum (l ++ x :: r) ≠ endAroundSum (l ++ y :: r) ↔ ∀ b ∈ l ++ r, b = 0#8)) ∧
    (¬(x = 0x00#8 ∧ y = 0xFF#8 ∨ x = 0xFF#8 ∧ y = 0x00#8) →
      endAroundSum (l ++ x :: r) ≠ endAroundSum (l ++ y :: r))

/-- 41_framecodec.md R120, R122: CKSUM writes the end-around-carry sum of payload, DST, SRC, MSGID, whatever PLEN is. -/
def Obligations.CksumCommandWritesCk : Prop :=
  ∀ s : State,
    let input := (if s.fctl = 1#1 then s.bufBytes .pbuf s.plen.toNat else []) ++ [s.dst, s.src, s.msgid]
    let acc := input.foldl
      (fun acc x => if acc + x.toNat > 255 then (acc + x.toNat) % 256 + 1 else acc + x.toNat) 0
    exec .cksum s = .next { s with ck := BitVec.ofNat 8 acc, status := 0#8 }

/-- 41_framecodec.md R124, R125; 30_encoding.md R84, R85: the bytes FENC writes, FLEN, and every other byte as before;
OperandRange for a payload over 240. -/
def Obligations.FencCommandWritesTheFrame : Prop :=
  ∀ s : State,
    let p := s.bufBytes .pbuf s.plen.toNat
    (s.fctl = 0#1 → ∃ t, exec .fenc s = .next t ∧
      t = { s with flen := 6#16, status := 0#8, mem := t.mem } ∧
      t.bufBytes .fbuf 6 =
        [0x10#8, s.dst, s.src, s.msgid, endAroundSum [s.dst, s.src, s.msgid], 0x16#8] ∧
      ∀ a, ¬(Buf.fbuf.base ≤ a ∧ a < Buf.fbuf.base + 6) → t.readByte a = s.readByte a) ∧
    (s.fctl = 1#1 → s.plen.toNat ≤ 240 → ∃ t, exec .fenc s = .next t ∧
      t = { s with flen := BitVec.ofNat 16 (s.plen.toNat + 9), status := 0#8, mem := t.mem } ∧
      t.bufBytes .fbuf (s.plen.toNat + 9) =
        [0x68#8, s.plen + 3#8, s.plen + 3#8, 0x68#8, s.dst, s.src, s.msgid] ++ p ++
          [endAroundSum (p ++ [s.dst, s.src, s.msgid]), 0x16#8] ∧
      ∀ a, ¬(Buf.fbuf.base ≤ a ∧ a < Buf.fbuf.base + (s.plen.toNat + 9)) → t.readByte a = s.readByte a) ∧
    (s.fctl = 1#1 → 240 < s.plen.toNat → exec .fenc s = .next { s with status := 6#8 })

/-- 41_framecodec.md R128, R129, R130; 30_encoding.md R84: FDEC on six bytes that begin with 10: the checksum before the
terminator, and the frame registers on success, PBUF as it was. -/
def Obligations.FdecCommandOnShortFrames : Prop :=
  ∀ (s : State) (dst src msg ck term : Byte),
    s.bufBytes .fbuf s.flen.toNat = [0x10#8, dst, src, msg, ck, term] →
    exec .fdec s = .next
      (if ck ≠ endAroundSum [dst, src, msg] then { s with status := 2#8 }
       else if term ≠ 0x16#8 then { s with status := 1#8 }
       else { s with src := src, dst := dst, msgid := msg, fctl := 0#1, plen := 0#8, status := 0#8 })

/-- 41_framecodec.md R128, R129, R130, R131; 30_encoding.md R85: FDEC on the long layout: with STRICT the payload bound
first, then the checksum, then the terminator; on success the frame registers and `PBUF[0..PL-1]`, every other byte as it
was. -/
def Obligations.FdecCommandOnLongFrames : Prop :=
  ∀ (s : State) (lb dst src msg ck term : Byte) (p : List Byte), lb.toNat = p.length + 3 →
    s.bufBytes .fbuf s.flen.toNat = [0x68#8, lb, lb, 0x68#8, dst, src, msg] ++ p ++ [ck, term] →
    ∃ t, exec .fdec s = .next t ∧
      if s.strict = true ∧ 240 < p.length then t = { s with status := 1#8 }
      else if ck ≠ endAroundSum (p ++ [dst, src, msg]) then t = { s with status := 2#8 }
      else if term ≠ 0x16#8 then t = { s with status := 1#8 }
      else
        t = { s with src := src, dst := dst, msgid := msg, fctl := 1#1, plen := BitVec.ofNat 8 p.length,
                     status := 0#8, mem := t.mem } ∧
        t.bufBytes .pbuf p.length = p ∧
        ∀ a, ¬(Buf.pbuf.base ≤ a ∧ a < Buf.pbuf.base + p.length) → t.readByte a = s.readByte a

/-- 41_framecodec.md R128 (checks 1 to 6 and 8), 60_exceptions.md R202, R207: FDEC on bytes of neither layout fails with
FramingError and changes nothing else. -/
def Obligations.FdecCommandOnOtherBytes : Prop :=
  ∀ s : State,
    (¬∃ dst src msg ck term : Byte,
      s.bufBytes .fbuf s.flen.toNat = [0x10#8, dst, src, msg, ck, term]) →
    (¬∃ (lb dst src msg ck term : Byte) (p : List Byte), lb.toNat = p.length + 3 ∧
      s.bufBytes .fbuf s.flen.toNat = [0x68#8, lb, lb, 0x68#8, dst, src, msg] ++ p ++ [ck, term]) →
    exec .fdec s = .next { s with status := 1#8 }

/-- 41_framecodec.md R133: an FLEN above the buffer is a FramingError, as R128 gives for any byte string that long. -/
def Obligations.OverlongFramesAreFramingErrors : Prop :=
  (∀ s : State, 261 < s.flen.toNat → exec .fdec s = .next { s with status := 1#8 }) ∧
  ∀ (b : List Byte) (strict : Bool), 261 < b.length → frameDecode b strict = .error .framingError

/-- 41_framecodec.md R131: STRICT turns exactly the decoded frames with more than 240 payload bytes into FramingErrors. -/
def Obligations.StrictBoundsTheDecodedPayload : Prop :=
  (∀ (b : List Byte) (f : Frame), frameDecode b false = .ok f →
    frameDecode b true = if (f.payload.getD []).length ≤ 240 then .ok f else .error .framingError) ∧
  ∀ (b : List Byte) (f : Frame), frameDecode b true = .ok f → frameDecode b false = .ok f

/-- 41_framecodec.md R132 (a): decoding what was encoded gives the frame back, absent and empty payloads kept apart. -/
def Obligations.FrameDecodeOfEncodeIsTheFrame : Prop :=
  ∀ (f : Frame) (strict : Bool), (f.payload.getD []).length ≤ 240 →
    ∃ b, frameEncode f = .ok b ∧ frameDecode b strict = .ok f

/-- 41_framecodec.md R132 (b), (c): the decoder accepts exactly one byte string for each encodable frame, and without
STRICT it accepts frames that are not encodable. -/
def Obligations.FrameEncodeOfDecodeIsTheBytes : Prop :=
  (∀ (b : List Byte) (strict : Bool) (f : Frame), frameDecode b strict = .ok f →
    (f.payload.getD []).length ≤ 240 → frameEncode f = .ok b) ∧
  ∃ (b : List Byte) (f : Frame), frameDecode b false = .ok f ∧ frameEncode f = .error .operandRange

/-- 41_framecodec.md R132, "As commands": FENC then FDEC succeed and leave `Frame()` and PBUF as they
were (with HASP clear PLEN, which the frame then ignores, becomes 0: 10_state.md R49). -/
def Obligations.FencThenFdecRestoresTheFrame : Prop :=
  ∀ s : State, s.fctl = 0#1 ∨ s.plen.toNat ≤ 240 →
    ∃ t u, exec .fenc s = .next t ∧ exec .fdec t = .next u ∧ u.status = 0#8 ∧ u.frame = s.frame ∧
      ∀ a, Buf.pbuf.holds a = true → u.readByte a = s.readByte a

/-! ### Envelope -/

/-- 42_envelope.md R140, R142: KSTREAM's two words, the complement written as a difference, and nothing else changed. -/
def Obligations.KstreamCommandWritesTheWords : Prop :=
  ∀ s : State, exec .kstream s = .next
    { s with k1 := transform s.skey (0xFFFFFFFF#32 - s.tid), k2 := transform s.skey s.tid, status := 0#8 }

/-- 42_envelope.md R141, R143: the keystream is key1's four bytes twice and then key2's for ever; complementing the
transaction id exchanges the two words. -/
def Obligations.KeystreamIsKeyOneTwiceThenKeyTwo : Prop :=
  ∀ (skey tid : Word) (i : Nat),
    (i < 8 → (le32 (transform skey (~~~tid)))[i % 4]? = some (keystreamByte skey tid i)) ∧
    (8 ≤ i → (le32 (transform skey tid))[i % 4]? = some (keystreamByte skey tid i)) ∧
    keystreamWords skey (~~~tid) = ((keystreamWords skey tid).2, (keystreamWords skey tid).1)

/-- 42_envelope.md R145, R147: Xor keeps length, acts byte by byte, and is its own inverse. -/
def Obligations.XorIsAnInvolutionByteByByte : Prop :=
  ∀ (skey tid : Word) (s : List Byte),
    xorKeystream skey tid (xorKeystream skey tid s) = s ∧
    (xorKeystream skey tid s).length = s.length ∧
    ∀ i : Nat, (xorKeystream skey tid s)[i]? = s[i]?.map (fun b => b ^^^ keystreamByte skey tid i)

/-- 42_envelope.md R146: CRYPT XORs `FBUF[0..FLEN-1]` in place and changes nothing else; OperandRange for an FLEN above
the buffer. -/
def Obligations.CryptCommandXorsFbufInPlace : Prop :=
  ∀ s : State,
    (s.flen.toNat ≤ 261 → ∃ t, exec .crypt s = .next t ∧ t = { s with status := 0#8, mem := t.mem } ∧
      (∀ i, i < s.flen.toNat → t.bufByte .fbuf i = s.bufByte .fbuf i ^^^ keystreamByte s.skey s.tid i) ∧
      ∀ a, ¬(Buf.fbuf.base ≤ a ∧ a < Buf.fbuf.base + s.flen.toNat) → t.readByte a = s.readByte a) ∧
    (261 < s.flen.toNat → exec .crypt s = .next { s with status := 6#8 })

/-- 70_reset_and_hazards.md R235: CRYPT issued twice restores FBUF. -/
def Obligations.CryptTwiceRestoresFbuf : Prop :=
  ∀ s : State, s.flen.toNat ≤ 261 →
    ∃ t u, exec .crypt s = .next t ∧ exec .crypt t = .next u ∧ u = { s with status := 0#8, mem := u.mem } ∧
      ∀ a, u.readByte a = s.readByte a

/-- 42_envelope.md R148, R149: ESIGN signs the inner frame's checksum whatever PWEN is; ProtocolError without one. -/
def Obligations.EsignCommandWritesTheSignature : Prop :=
  ∀ s : State,
    let p := if s.fctl = 1#1 then s.bufBytes .pbuf s.plen.toNat else []
    let ck := endAroundSum (p ++ [s.dst, s.src, s.msgid])
    (s.ectl = 1#1 → exec .esign s = .next
      { s with sig := transform s.password (s.tid + s.skey + 256#32 + ck.setWidth 32), status := 0#8 }) ∧
    (s.ectl = 0#1 → exec .esign s = .next { s with status := 5#8 })

/-- 42_envelope.md R150: the signature depends on transaction id, station key and checksum only through their sum. -/
def Obligations.SignatureDependsOnTheSum : Prop :=
  ∀ (p t t' k k' : Word) (c c' : Byte),
    (t.toNat + k.toNat + c.toNat) % 2 ^ 32 = (t'.toNat + k'.toNat + c'.toNat) % 2 ^ 32 →
    signature p t k c = signature p t' k' c'

/-- 42_envelope.md R152, R153: a handshake-only envelope is its fourteen header bytes, in clear, little-endian. -/
def Obligations.EserCommandWithoutFrame : Prop :=
  ∀ s : State, s.mode = 0x1111#16 → s.ectl = 0#1 →
    ∃ t, exec .eser s = .next t ∧ t = { s with dlen := 14#16, status := 0#8, mem := t.mem } ∧
      t.bufBytes .dbuf 14 =
        [s.tid.extractLsb' 0 8, s.tid.extractLsb' 8 8, s.tid.extractLsb' 16 8, s.tid.extractLsb' 24 8,
         0x11#8, 0x11#8,
         s.skey.extractLsb' 0 8, s.skey.extractLsb' 8 8, s.skey.extractLsb' 16 8, s.skey.extractLsb' 24 8,
         s.sig.extractLsb' 0 8, s.sig.extractLsb' 8 8, s.sig.extractLsb' 16 8, s.sig.extractLsb' 24 8] ∧
      ∀ a, ¬(Buf.dbuf.base ≤ a ∧ a < Buf.dbuf.base + 14) → t.readByte a = s.readByte a

/-- 42_envelope.md R152, R153, R154: an envelope with a frame is the header, the length marker, and the frame's bytes
XORed with the keystream of SKEY and TID. -/
def Obligations.EserCommandWithFrame : Prop :=
  ∀ (s : State) (plain : List Byte), s.mode ≠ 0x1111#16 → s.ectl = 1#1 → frameEncode s.frame = .ok plain →
    (s.fctl = 0#1 → plain.length = 6) ∧ (s.fctl = 1#1 → plain.length = s.plen.toNat + 9) ∧
    ∃ t, exec .eser s = .next t ∧
      t = { s with dlen := BitVec.ofNat 16 (15 + plain.length), status := 0#8, mem := t.mem } ∧
      t.bufBytes .dbuf (15 + plain.length) =
        le32 s.tid ++ le16 s.mode ++ le32 s.skey ++ le32 s.sig ++ [BitVec.ofNat 8 (plain.length - 6)] ++
          xorKeystream s.skey s.tid plain ∧
      ∀ a, ¬(Buf.dbuf.base ≤ a ∧ a < Buf.dbuf.base + (15 + plain.length)) → t.readByte a = s.readByte a

/-- 42_envelope.md R153, 60_exceptions.md R206, R208, R210: ESER's errors, ProtocolError before OperandRange. -/
def Obligations.EserCommandErrors : Prop :=
  ∀ s : State,
    (s.mode = 0x1111#16 → s.ectl = 1#1 → exec .eser s = .next { s with status := 5#8 }) ∧
    (s.mode ≠ 0x1111#16 → s.ectl = 0#1 → exec .eser s = .next { s with status := 5#8 }) ∧
    (s.mode ≠ 0x1111#16 → s.ectl = 1#1 → s.fctl = 1#1 → 240 < s.plen.toNat →
      exec .eser s = .next { s with status := 6#8 })

/-- 42_envelope.md R155 (checks 1, 3), R158 (d), 60_exceptions.md R205: EDES on a datagram of a wrong length. -/
def Obligations.EdesCommandLengthErrors : Prop :=
  (∀ s : State,
    s.dlen.toNat < 14 ∨ 276 < s.dlen.toNat ∨
      (14 < s.dlen.toNat ∧ s.dlen.toNat ≠ 15 + ((s.bufByte .dbuf 14).toNat + 6)) →
    exec .edes s = .next { s with status := 4#8 }) ∧
  ∀ (d : List Byte) (pwen strict : Bool) (password : Word), 276 < d.length →
    envDeserialize d pwen password strict = .error .lengthMismatch

/-- 42_envelope.md R155 (check 2), R156, R157: EDES on a header-only datagram copies the header, clears HASF and leaves
the frame registers and every buffer byte; no signature is checked. -/
def Obligations.EdesCommandOnHeaderOnly : Prop :=
  ∀ (s : State) (tid skey sig : Word) (mode : Half),
    s.bufBytes .dbuf s.dlen.toNat = le32 tid ++ le16 mode ++ le32 skey ++ le32 sig →
    exec .edes s = .next
      (if s.strict = true ∧ mode ≠ 0x1111#16 then { s with status := 5#8 }
       else { s with tid := tid, mode := mode, skey := skey, sig := sig, ectl := 0#1, status := 0#8 })

/-- 42_envelope.md R155 (checks 4 to 6), R156, R157, R158: EDES on a datagram with a body: the STRICT mode check, the
frame's own checks on the bytes decrypted with the datagram's key and id, the signature when a password is configured,
and on success the envelope and the frame. -/
def Obligations.EdesCommandOnBody : Prop :=
  ∀ (s : State) (tid skey sig : Word) (mode : Half) (lm : Byte) (enc : List Byte), enc.length = lm.toNat + 6 →
    s.bufBytes .dbuf s.dlen.toNat = le32 tid ++ le16 mode ++ le32 skey ++ le32 sig ++ [lm] ++ enc →
    (s.strict = true → mode = 0x1111#16 → exec .edes s = .next { s with status := 5#8 }) ∧
    (¬(s.strict = true ∧ mode = 0x1111#16) →
      (∀ k, frameDecode (xorKeystream skey tid enc) s.strict = .error k →
        exec .edes s = .next { s with status := k.code }) ∧
      (∀ f, frameDecode (xorKeystream skey tid enc) s.strict = .ok f →
        (s.ctrl = 1#1 ∧ signature s.password tid skey f.checksum ≠ sig →
          exec .edes s = .next { s with status := 3#8 }) ∧
        (¬(s.ctrl = 1#1 ∧ signature s.password tid skey f.checksum ≠ sig) →
          ∃ t, exec .edes s = .next t ∧
            t = { s with tid := tid, mode := mode, skey := skey, sig := sig, ectl := 1#1,
                         src := f.sourceAddr, dst := f.destAddr, msgid := f.msgId, fctl := t.fctl, plen := t.plen,
                         status := 0#8, mem := t.mem } ∧
            t.frame = f ∧ (f.payload = none → t.plen = 0#8) ∧
            ∀ a, ¬(Buf.pbuf.base ≤ a ∧ a < Buf.pbuf.base + (f.payload.getD []).length) →
              t.readByte a = s.readByte a)))

/-- 42_envelope.md R159: deserialising what was serialised gives the envelope back, where no signature is checked or the
signature is the right one, for both values of STRICT. -/
def Obligations.DeserializeOfSerializeIsTheEnvelope : Prop :=
  ∀ (e : Envelope) (d : List Byte) (pwen strict : Bool) (password : Word), envSerialize e = .ok d →
    (pwen = false ∨ e.innerFrame = none ∨
      ∃ f, e.innerFrame = some f ∧ e.signature = signature password e.transactionId e.stationKey f.checksum) →
    envDeserialize d pwen password strict = .ok e

/-- 42_envelope.md R159, "Conversely": serialising what was deserialised gives the datagram back. -/
def Obligations.SerializeOfDeserializeIsTheDatagram : Prop :=
  ∀ (d d' : List Byte) (pwen strict : Bool) (password : Word) (e : Envelope),
    envDeserialize d pwen password strict = .ok e → envSerialize e = .ok d' → d' = d

/-- 42_envelope.md R159, "As commands": ESIGN, ESER, EDES with the same PASSWORD succeed and leave the envelope. -/
def Obligations.EsignEserEdesRestoresTheEnvelope : Prop :=
  ∀ s : State, s.ectl = 1#1 → s.mode ≠ 0x1111#16 → s.fctl = 0#1 ∨ s.plen.toNat ≤ 240 →
    ∃ t u v, exec .esign s = .next t ∧ exec .eser t = .next u ∧ exec .edes u = .next v ∧ v.status = 0#8 ∧
      v.envelope = t.envelope ∧ v.frame = s.frame ∧ v.tid = s.tid ∧ v.mode = s.mode ∧ v.skey = s.skey

/-- 42_envelope.md R160 (e): without STRICT a change of the mode field is never detected; only MODE differs. -/
def Obligations.ModeChangesAreNotDetected : Prop :=
  ∀ (d : List Byte) (pwen : Bool) (password : Word) (e : Envelope) (m0 m1 : Byte),
    envDeserialize d pwen password false = .ok e →
    envDeserialize ((d.set 4 m0).set 5 m1) pwen password false = .ok { e with mode := u16le [m0, m1] }
end

