-- ==== Sys2Proof/Laws/Bytes.lean ====
section
/-! SUPPORT. Byte order and the keystream's XOR, as lists. -/

namespace Sys2Proof

@[simp] theorem leBytes_length (n v : Nat) : (leBytes n v).length = n := by
  induction n generalizing v with
  | zero => rfl
  | succ n ih => simp [leBytes, ih]

/-- Reading back the bytes of a number gives its low bytes. -/
theorem leNat_leBytes (n v : Nat) : leNat (leBytes n v) = v % 256 ^ n := by
  induction n generalizing v with
  | zero => simp [leBytes, leNat, Nat.mod_one]
  | succ n ih =>
    have h : (BitVec.ofNat 8 v).toNat = v % 256 := BitVec.toNat_ofNat v 8
    rw [leBytes, leNat, ih, h, Nat.pow_succ', Nat.mod_mul]

/-- Laying out the number that bytes make gives the bytes. -/
theorem leBytes_leNat (bs : List Byte) : leBytes bs.length (leNat bs) = bs := by
  induction bs with
  | nil => rfl
  | cons b bs ih =>
    have hb := b.isLt
    rw [List.length_cons, leBytes, leNat]
    congr 1
    · apply BitVec.eq_of_toNat_eq
      rw [BitVec.toNat_ofNat]; omega
    · rw [show (b.toNat + 256 * leNat bs) / 256 = leNat bs by omega, ih]

theorem leNat_lt (bs : List Byte) : leNat bs < 256 ^ bs.length := by
  induction bs with
  | nil => simp [leNat]
  | cons b bs ih =>
    have hb := b.isLt
    rw [leNat, List.length_cons, pow_succ']
    omega

@[simp] theorem le16_length (v : Half) : (le16 v).length = 2 := leBytes_length _ _

@[simp] theorem le32_length (v : Word) : (le32 v).length = 4 := leBytes_length _ _

@[simp] theorem u16le_le16 (v : Half) : u16le (le16 v) = v := by
  apply BitVec.eq_of_toNat_eq
  have := v.isLt
  rw [u16le, le16, leNat_leBytes, BitVec.toNat_ofNat]; omega

@[simp] theorem u32le_le32 (v : Word) : u32le (le32 v) = v := by
  apply BitVec.eq_of_toNat_eq
  have := v.isLt
  rw [u32le, le32, leNat_leBytes, BitVec.toNat_ofNat]; omega

theorem le16_u16le {s : List Byte} (h : s.length = 2) : le16 (u16le s) = s := by
  have h2 := leNat_lt s
  rw [h] at h2
  rw [u16le, le16, BitVec.toNat_ofNat, Nat.mod_eq_of_lt (by omega), ← h, leBytes_leNat]

theorem le32_u32le {s : List Byte} (h : s.length = 4) : le32 (u32le s) = s := by
  have h2 := leNat_lt s
  rw [h] at h2
  rw [u32le, le32, BitVec.toNat_ofNat, Nat.mod_eq_of_lt (by omega), ← h, leBytes_leNat]

/-- The bytes of `le32`, least significant first (00_scope.md R10). -/
theorem le32_eq (v : Word) :
    le32 v = [v.extractLsb' 0 8, v.extractLsb' 8 8, v.extractLsb' 16 8, v.extractLsb' 24 8] := by
  simp only [le32, leBytes, List.cons.injEq, and_true]
  refine ⟨?_, ?_, ?_, ?_⟩ <;> apply BitVec.eq_of_toNat_eq <;>
    simp [BitVec.extractLsb'_toNat, Nat.shiftRight_eq_div_pow, Nat.div_div_eq_div_mul]

namespace Machine

@[simp] theorem xorFrom_length (ks : Word × Word) (i : Nat) (s : List Byte) : (xorFrom ks i s).length = s.length := by
  induction s generalizing i with
  | nil => rfl
  | cons b s ih => simp [xorFrom, ih]

/-- One byte of the XOR. -/
theorem xorFrom_getElem? (ks : Word × Word) (i j : Nat) (s : List Byte) :
    (xorFrom ks i s)[j]? = s[j]?.map (fun b => b ^^^ keystreamByteOf ks (i + j)) := by
  induction s generalizing i j with
  | nil => simp [xorFrom]
  | cons b s ih =>
    cases j with
    | zero => simp [xorFrom]
    | succ j => simp only [xorFrom, List.getElem?_cons_succ, ih, Nat.add_assoc, Nat.add_comm 1 j]

@[simp] theorem header_length (e : Envelope) : e.header.length = 14 := by
  simp [Envelope.header]

end Machine

end Sys2Proof
end

