-- ==== Sys2Proof/Laws/Codec.lean ====
section
/-! SUPPORT. What the frame and envelope codecs answer, once each, in terms of the wire layouts (30_encoding.md R84 to R91). -/

namespace Sys2Proof.Machine

/-- The short frame's bytes with checksum byte `ck` and last byte `term` (30_encoding.md R84). -/
def shortLayout (dst src msg ck term : Byte) : List Byte :=
  [shortStart, dst, src, msg, ck, term]

/-- The long frame's bytes with length byte `lb`, checksum byte `ck` and last byte `term` (30_encoding.md R85). -/
def longLayout (lb dst src msg : Byte) (p : List Byte) (ck term : Byte) : List Byte :=
  [longStart, lb, lb, longStart, dst, src, msg] ++ p ++ [ck, term]

@[simp] theorem longLayout_length (lb dst src msg : Byte) (p : List Byte) (ck term : Byte) :
    (longLayout lb dst src msg p ck term).length = p.length + 9 := by
  simp [longLayout]

/-- A sequence of at least nine bytes is its first seven, a middle, and its last two. -/
theorem long_split {b : List Byte} (h : 9 ≤ b.length) :
    b = [byteAt b 0, byteAt b 1, byteAt b 2, byteAt b 3, byteAt b 4, byteAt b 5, byteAt b 6] ++
      (b.drop 7).take (b.length - 9) ++ [byteAt b (b.length - 2), byteAt b (b.length - 1)] := by
  refine List.ext_getElem? fun i => ?_
  have hlen : ((b.drop 7).take (b.length - 9)).length = b.length - 9 := by
    simp only [List.length_take, List.length_drop]; omega
  have hb : ∀ j, j < b.length → b[j]? = some (byteAt b j) := fun j hj => by
    simp [byteAt, List.getElem?_eq_getElem hj]
  rcases Nat.lt_or_ge i 7 with h7 | h7
  · rw [List.append_assoc, List.getElem?_append_left (by simpa using h7), hb i (by omega)]
    interval_cases i <;> rfl
  · rcases Nat.lt_or_ge i (b.length - 2) with h2 | h2
    · rw [List.getElem?_append_left (by simp only [List.length_append, hlen, List.length_cons, List.length_nil]; omega),
        List.getElem?_append_right (by simpa using h7), List.getElem?_take, List.getElem?_drop]
      simp only [List.length_cons, List.length_nil]
      rw [if_pos (by omega)]; congr 1; omega
    · rw [List.getElem?_append_right (by simp only [List.length_append, hlen, List.length_cons, List.length_nil]; omega)]
      simp only [List.length_append, hlen, List.length_cons, List.length_nil]
      rcases Nat.lt_or_ge i b.length with hi | hi
      · rw [hb i hi]
        obtain rfl | rfl : i = b.length - 2 ∨ i = b.length - 1 := by omega
        · rw [show b.length - 2 - (0 + 1 + 1 + 1 + 1 + 1 + 1 + 1 + (b.length - 9)) = 0 by omega]; rfl
        · rw [show b.length - 1 - (0 + 1 + 1 + 1 + 1 + 1 + 1 + 1 + (b.length - 9)) = 1 by omega]; rfl
      · rw [List.getElem?_eq_none hi, List.getElem?_eq_none (by simp only [List.length_cons, List.length_nil]; omega)]

/-- Six bytes are their six bytes. -/
theorem short_split {b : List Byte} (h : b.length = 6) :
    b = [byteAt b 0, byteAt b 1, byteAt b 2, byteAt b 3, byteAt b 4, byteAt b 5] := by
  match b, h with
  | [_, _, _, _, _, _], _ => rfl

/-- FrameDecode on the short layout: the checksum, then the terminator (41_framecodec.md R128). -/
theorem frameDecode_short (dst src msg ck term : Byte) (strict : Bool) :
    frameDecode (shortLayout dst src msg ck term) strict =
      checkFields { sourceAddr := src, destAddr := dst, msgId := msg, payload := none } ck term := rfl

theorem longStart_ne_shortStart : ¬ longStart = shortStart := by decide

/-- FrameDecode on the long layout: the STRICT bound, the checksum, the terminator (41_framecodec.md R128). -/
theorem frameDecode_long {lb : Byte} {p : List Byte} (h : lb.toNat = p.length + 3) (dst src msg ck term : Byte)
    (strict : Bool) :
    frameDecode (longLayout lb dst src msg p ck term) strict =
      if strict && decide (p.length > maxPayload) then .error .framingError
      else checkFields { sourceAddr := src, destAddr := dst, msgId := msg, payload := some p } ck term := by
  have h0 : byteAt (longLayout lb dst src msg p ck term) 0 = longStart := rfl
  have h1 : byteAt (longLayout lb dst src msg p ck term) 1 = lb := rfl
  have h2 : byteAt (longLayout lb dst src msg p ck term) 2 = lb := rfl
  have h3 : byteAt (longLayout lb dst src msg p ck term) 3 = longStart := rfl
  have h4 : byteAt (longLayout lb dst src msg p ck term) 4 = dst := rfl
  have h5 : byteAt (longLayout lb dst src msg p ck term) 5 = src := rfl
  have h6 : byteAt (longLayout lb dst src msg p ck term) 6 = msg := rfl
  have hp : ((longLayout lb dst src msg p ck term).drop 7).take p.length = p := by simp [longLayout]
  have hc : byteAt (longLayout lb dst src msg p ck term) (p.length + 7) = ck := by
    simp [byteAt, longLayout, List.getD_eq_getElem?_getD]
  have ht : byteAt (longLayout lb dst src msg p ck term) (p.length + 8) = term := by
    simp [byteAt, longLayout, List.getD_eq_getElem?_getD]
  simp only [frameDecode, longLayout_length, h0, h1, h2, h3, h4, h5, h6]
  have e1 : p.length + 9 - 9 = p.length := by omega
  have e2 : p.length + 9 - 2 = p.length + 7 := by omega
  have e3 : p.length + 9 - 1 = p.length + 8 := by omega
  rw [e1, e2, e3, hp, hc, ht, if_neg (by omega), if_neg longStart_ne_shortStart, if_pos trivial, if_neg (by omega),
    if_neg (by simp), if_neg (by simp), if_neg (by omega)]

/-- Every byte sequence has the short layout, has the long layout, or is a FramingError (41_framecodec.md R128, checks 1
to 6 and 8). -/
theorem frameDecode_cases (b : List Byte) (strict : Bool) :
    (∃ dst src msg ck term, b = shortLayout dst src msg ck term) ∨
    (∃ lb dst src msg p ck term, lb.toNat = p.length + 3 ∧ b = longLayout lb dst src msg p ck term) ∨
    frameDecode b strict = .error .framingError := by
  by_cases hn : b.length = 0
  · exact .inr (.inr (by simp [frameDecode, hn]))
  by_cases h0 : byteAt b 0 = shortStart
  · by_cases h6 : b.length = 6
    · refine .inl ⟨byteAt b 1, byteAt b 2, byteAt b 3, byteAt b 4, byteAt b 5, ?_⟩
      conv_lhs => rw [short_split h6]
      rw [h0]; rfl
    · exact .inr (.inr (by simp [frameDecode, hn, h0, h6]))
  by_cases hl : byteAt b 0 = longStart
  · by_cases h9 : b.length < 9
    · exact .inr (.inr (by simp [frameDecode, hn, hl, h9, longStart_ne_shortStart]))
    by_cases h1 : byteAt b 1 = byteAt b 2
    · by_cases h3 : byteAt b 3 = longStart
      · by_cases hb : (b.length - 9) + 3 = (byteAt b 1).toNat
        · refine .inr (.inl ⟨byteAt b 1, byteAt b 4, byteAt b 5, byteAt b 6, (b.drop 7).take (b.length - 9),
            byteAt b (b.length - 2), byteAt b (b.length - 1), ?_, ?_⟩)
          · rw [← hb]; simp only [List.length_take, List.length_drop]; omega
          · conv_lhs => rw [long_split (Nat.le_of_not_lt h9)]
            rw [hl, ← h1, h3]; rfl
        · refine .inr (.inr ?_)
          simp only [frameDecode]
          rw [if_neg hn, if_neg h0, if_pos hl, if_neg h9, if_neg (not_not.mpr h1), if_neg (not_not.mpr h3), if_pos hb]
      · refine .inr (.inr ?_)
        simp only [frameDecode]
        rw [if_neg hn, if_neg h0, if_pos hl, if_neg h9, if_neg (not_not.mpr h1), if_pos h3]
    · refine .inr (.inr ?_)
      simp only [frameDecode]
      rw [if_neg hn, if_neg h0, if_pos hl, if_neg h9, if_pos h1]
  · exact .inr (.inr (by simp [frameDecode, hn, h0, hl]))

/-- All that the last two checks can do. -/
theorem checkFields_ok {f g : Frame} {ck term : Byte} (h : checkFields f ck term = .ok g) :
    g = f ∧ ck = f.checksum ∧ term = terminator := by
  simp only [checkFields] at h
  split at h
  · cases h
  · split at h
    · cases h
    · rename_i h1 h2
      cases h
      exact ⟨rfl, not_not.mp h1, not_not.mp h2⟩

/-- All that FrameDecode accepts: the two layouts, with the fields of the frame it answers. -/
theorem frameDecode_ok {b : List Byte} {strict : Bool} {f : Frame} (h : frameDecode b strict = .ok f) :
    (f.payload = none ∧ b = shortLayout f.destAddr f.sourceAddr f.msgId f.checksum terminator) ∨
    (∃ p lb, f.payload = some p ∧ lb.toNat = p.length + 3 ∧ (strict = true → p.length ≤ maxPayload) ∧
      b = longLayout lb f.destAddr f.sourceAddr f.msgId p f.checksum terminator) := by
  rcases frameDecode_cases b strict with ⟨d, s, m, ck, t, rfl⟩ | ⟨lb, d, s, m, p, ck, t, hl, rfl⟩ | he
  · rw [frameDecode_short] at h
    obtain ⟨rfl, rfl, rfl⟩ := checkFields_ok h
    exact .inl ⟨rfl, rfl⟩
  · rw [frameDecode_long hl] at h
    split at h
    · cases h
    · rename_i hs
      obtain ⟨rfl, rfl, rfl⟩ := checkFields_ok h
      refine .inr ⟨p, lb, rfl, hl, fun hst => ?_, rfl⟩
      simpa [hst] using hs
  · rw [he] at h; cases h

/-- A decoded payload has at most 252 bytes: the length byte is one byte (00_scope.md R8). -/
theorem frameDecode_payload_length {b : List Byte} {strict : Bool} {f : Frame} (h : frameDecode b strict = .ok f) :
    (f.payload.getD []).length ≤ 252 := by
  rcases frameDecode_ok h with ⟨hp, _⟩ | ⟨p, lb, hp, hl, _, _⟩
  · simp [hp]
  · have := lb.isLt
    rw [hp]; simp only [Option.getD_some]; omega

/-- All that FrameEncode can do: the layout of the frame's own kind, or OperandRange (41_framecodec.md R124). -/
theorem frameEncode_cases (f : Frame) :
    (f.payload = none ∧
      frameEncode f = .ok (shortLayout f.destAddr f.sourceAddr f.msgId f.checksum terminator)) ∨
    (∃ p, f.payload = some p ∧ p.length ≤ maxPayload ∧
      frameEncode f = .ok (longLayout (BitVec.ofNat 8 (p.length + 3)) f.destAddr f.sourceAddr f.msgId p f.checksum
        terminator)) ∨
    (∃ p, f.payload = some p ∧ maxPayload < p.length ∧ frameEncode f = .error .operandRange) := by
  rcases hp : f.payload with _ | p
  · exact .inl ⟨rfl, by simp only [frameEncode, hp]; rfl⟩
  · by_cases h : p.length ≤ maxPayload
    · exact .inr (.inl ⟨p, rfl, h, by simp only [frameEncode, hp]; rw [if_neg (by omega)]; rfl⟩)
    · exact .inr (.inr ⟨p, rfl, by omega, by simp only [frameEncode, hp]; rw [if_pos (by omega)]⟩)

/-- The bytes FrameEncode answers number 6, or 9 to 249 (00_scope.md R8). -/
theorem frameEncode_length {f : Frame} {b : List Byte} (h : frameEncode f = .ok b) :
    6 ≤ b.length ∧ b.length ≤ 249 := by
  rcases frameEncode_cases f with ⟨_, he⟩ | ⟨p, _, hp, he⟩ | ⟨p, _, _, he⟩ <;> rw [he] at h <;> cases h
  · simp [shortLayout]
  · simp only [longLayout_length, maxPayload] at *; omega

/-- All that EnvSerialize can do (42_envelope.md R152). -/
theorem envSerialize_ok {e : Envelope} {d : List Byte} (h : envSerialize e = .ok d) :
    (e.mode = invalidStationKey ∧ e.innerFrame = none ∧ d = e.header) ∨
    (e.mode ≠ invalidStationKey ∧ ∃ f plain, e.innerFrame = some f ∧ frameEncode f = .ok plain ∧
      d = e.header ++ [BitVec.ofNat 8 (plain.length - 6)] ++ xorKeystream e.stationKey e.transactionId plain) := by
  simp only [envSerialize] at h
  split at h
  · rename_i hm
    split at h
    · cases h
    · rename_i hi; cases h; exact .inl ⟨hm, hi, rfl⟩
  · rename_i hm
    split at h
    · cases h
    · rename_i f hi
      split at h
      · cases h
      · rename_i plain hp
        cases h
        exact .inr ⟨hm, f, plain, hi, hp, by simp [xorKeystream]⟩

/-- The bytes EnvSerialize answers fit DBUF (00_scope.md R8). -/
theorem envSerialize_length {e : Envelope} {d : List Byte} (h : envSerialize e = .ok d) : d.length ≤ 264 := by
  rcases envSerialize_ok h with ⟨_, _, rfl⟩ | ⟨_, f, plain, _, hp, rfl⟩
  · simp
  · have := (frameEncode_length hp).2
    simp only [List.length_append, header_length, xorKeystream, xorFrom_length, List.length_cons, List.length_nil]
    omega

/-- All that EnvDeserialize accepts (42_envelope.md R155). -/
theorem envDeserialize_ok {d : List Byte} {pwen strict : Bool} {password : Word} {e : Envelope}
    (h : envDeserialize d pwen password strict = .ok e) :
    (d.length = headerLength ∧ e = parseHeader d none ∧ (strict = true → e.mode = invalidStationKey)) ∨
    (headerLength < d.length ∧ d.length - 15 = (byteAt d 14).toNat + 6 ∧
      (strict = true → e.mode ≠ invalidStationKey) ∧
      ∃ f, frameDecode (xorKeystream e.stationKey e.transactionId (d.drop 15)) strict = .ok f ∧
        e = parseHeader d (some f) ∧
        (pwen = true → signature password e.transactionId e.stationKey f.checksum = e.signature)) := by
  simp only [envDeserialize] at h
  split at h
  · cases h
  rename_i h1
  split at h
  · rename_i h2
    split at h
    · cases h
    · rename_i h3
      cases h
      refine .inl ⟨h2, rfl, fun hs => ?_⟩
      simpa [hs] using h3
  rename_i h2
  split at h
  · cases h
  rename_i h3
  split at h
  · cases h
  rename_i h4
  split at h
  · cases h
  rename_i f hf
  simp only [checkSignature] at h
  split at h
  · cases h
  rename_i h5
  cases h
  refine .inr ⟨by omega, not_not.mp h3, fun hs => ?_, f, hf, rfl, fun hp => ?_⟩
  · have h6 : ¬(parseHeader d none).mode = invalidStationKey := by simpa [hs] using h4
    exact h6
  · simpa [hp] using h5

/-- The header fields of bytes that begin with a header (30_encoding.md R89, R93). -/
theorem parseHeader_append (tid skey sig : Word) (mode : Half) (r : List Byte) (inner : Option Frame) :
    parseHeader (le32 tid ++ le16 mode ++ le32 skey ++ le32 sig ++ r) inner = ⟨tid, mode, skey, sig, inner⟩ := by
  have e1 : slice (le32 tid ++ le16 mode ++ le32 skey ++ le32 sig ++ r) 0 4 = le32 tid := by
    simp [slice]
  have e2 : slice (le32 tid ++ le16 mode ++ le32 skey ++ le32 sig ++ r) 4 2 = le16 mode := by
    simp [slice]
  have e3 : slice (le32 tid ++ le16 mode ++ le32 skey ++ le32 sig ++ r) 6 4 = le32 skey := by
    simp [slice, List.take_append, List.drop_append]
  have e4 : slice (le32 tid ++ le16 mode ++ le32 skey ++ le32 sig ++ r) 10 4 = le32 sig := by
    have h0 : (le32 tid ++ le16 mode ++ le32 skey).length = 10 := by simp
    rw [slice, List.append_assoc (le32 tid ++ le16 mode ++ le32 skey), ← h0, List.drop_left]
    simp
  simp only [parseHeader, e1, e2, e3, e4, u32le_le32, u16le_le16]

/-- EnvDeserialize on a header alone (42_envelope.md R155, checks 1 and 2). -/
theorem envDeserialize_header (tid skey sig : Word) (mode : Half) (pwen strict : Bool) (pw : Word) :
    envDeserialize (le32 tid ++ le16 mode ++ le32 skey ++ le32 sig) pwen pw strict =
      if strict = true ∧ mode ≠ 0x1111#16 then .error .protocolError else .ok ⟨tid, mode, skey, sig, none⟩ := by
  have hp := parseHeader_append tid skey sig mode [] none
  rw [List.append_nil] at hp
  have hl : (le32 tid ++ le16 mode ++ le32 skey ++ le32 sig).length = 14 := by simp
  simp only [envDeserialize, hp, hl, headerLength]
  rw [if_neg (by omega), if_pos trivial]
  by_cases hm : mode = invalidStationKey
  · have hm' : mode = 0x1111#16 := hm
    rw [if_neg (by simp [hm]), if_neg (by simp [hm'])]
  · have hm' : ¬ mode = 0x1111#16 := hm
    cases strict <;> simp [hm, hm']

/-- EnvDeserialize on a header, a length marker and as many bytes as it says (42_envelope.md R155, checks 3 to 6). -/
theorem envDeserialize_body (tid skey sig : Word) (mode : Half) (lm : Byte) (enc : List Byte) (pwen strict : Bool)
    (pw : Word) (hl : enc.length = lm.toNat + 6) :
    envDeserialize (le32 tid ++ le16 mode ++ le32 skey ++ le32 sig ++ [lm] ++ enc) pwen pw strict =
      if strict = true ∧ mode = 0x1111#16 then .error .protocolError else
      match frameDecode (xorKeystream skey tid enc) strict with
      | .error k => .error k
      | .ok f =>
        if pwen = true ∧ signature pw tid skey f.checksum ≠ sig then .error .signatureMismatch
        else .ok ⟨tid, mode, skey, sig, some f⟩ := by
  have hp := fun inner => parseHeader_append tid skey sig mode ([lm] ++ enc) inner
  simp only [← List.append_assoc] at hp
  have hn : (le32 tid ++ le16 mode ++ le32 skey ++ le32 sig ++ [lm] ++ enc).length = 15 + enc.length := by simp; omega
  have hh : (le32 tid ++ le16 mode ++ le32 skey ++ le32 sig).length = 14 := by simp
  have hb : byteAt (le32 tid ++ le16 mode ++ le32 skey ++ le32 sig ++ [lm] ++ enc) 14 = lm := by
    rw [byteAt, List.getD_eq_getElem?_getD, List.append_assoc, List.getElem?_append_right (by rw [hh]), hh]; rfl
  have hd : (le32 tid ++ le16 mode ++ le32 skey ++ le32 sig ++ [lm] ++ enc).drop 15 = enc := by
    rw [List.drop_append_of_le_length (by simp)]
    simp
  simp only [envDeserialize, hp, hn, hb, hd, headerLength]
  rw [if_neg (by omega), if_neg (by omega), if_neg (by omega)]
  by_cases hc : strict = true ∧ mode = 0x1111#16
  · have : mode = invalidStationKey := hc.2
    rw [if_pos hc, if_pos (by simp [hc.1, this])]
  · have : ¬(strict = true ∧ mode = invalidStationKey) := hc
    rw [if_neg hc, if_neg (by simpa using this)]
    cases frameDecode (xorKeystream skey tid enc) strict with
    | error k => rfl
    | ok f => simp [checkSignature]

end Sys2Proof.Machine
end

