-- ==== Sys2Proof/Laws/State.lean ====
section
/-! SUPPORT. One lemma per field per named update of the state, so that no proof unfolds a record update. -/

namespace Sys2Proof.Machine

variable (s : State)

@[simp] theorem State.setStatus_status (v : BitVec 8) : (s.setStatus v).status = v := rfl
@[simp] theorem State.setStatus_ctrl (v : BitVec 8) : (s.setStatus v).ctrl = s.ctrl := rfl
@[simp] theorem State.setStatus_password (v : BitVec 8) : (s.setStatus v).password = s.password := rfl
@[simp] theorem State.setStatus_key (v : BitVec 8) : (s.setStatus v).key = s.key := rfl
@[simp] theorem State.setStatus_data (v : BitVec 8) : (s.setStatus v).data = s.data := rfl
@[simp] theorem State.setStatus_result (v : BitVec 8) : (s.setStatus v).result = s.result := rfl
@[simp] theorem State.setStatus_src (v : BitVec 8) : (s.setStatus v).src = s.src := rfl
@[simp] theorem State.setStatus_dst (v : BitVec 8) : (s.setStatus v).dst = s.dst := rfl
@[simp] theorem State.setStatus_msgid (v : BitVec 8) : (s.setStatus v).msgid = s.msgid := rfl
@[simp] theorem State.setStatus_fctl (v : BitVec 8) : (s.setStatus v).fctl = s.fctl := rfl
@[simp] theorem State.setStatus_plen (v : BitVec 8) : (s.setStatus v).plen = s.plen := rfl
@[simp] theorem State.setStatus_ck (v : BitVec 8) : (s.setStatus v).ck = s.ck := rfl
@[simp] theorem State.setStatus_tid (v : BitVec 8) : (s.setStatus v).tid = s.tid := rfl
@[simp] theorem State.setStatus_mode (v : BitVec 8) : (s.setStatus v).mode = s.mode := rfl
@[simp] theorem State.setStatus_skey (v : BitVec 8) : (s.setStatus v).skey = s.skey := rfl
@[simp] theorem State.setStatus_sig (v : BitVec 8) : (s.setStatus v).sig = s.sig := rfl
@[simp] theorem State.setStatus_ectl (v : BitVec 8) : (s.setStatus v).ectl = s.ectl := rfl
@[simp] theorem State.setStatus_k1 (v : BitVec 8) : (s.setStatus v).k1 = s.k1 := rfl
@[simp] theorem State.setStatus_k2 (v : BitVec 8) : (s.setStatus v).k2 = s.k2 := rfl
@[simp] theorem State.setStatus_flen (v : BitVec 8) : (s.setStatus v).flen = s.flen := rfl
@[simp] theorem State.setStatus_dlen (v : BitVec 8) : (s.setStatus v).dlen = s.dlen := rfl
@[simp] theorem State.setStatus_mem (v : BitVec 8) : (s.setStatus v).mem = s.mem := rfl
@[simp] theorem State.setStatus_draw (v : BitVec 8) : (s.setStatus v).draw = s.draw := rfl
@[simp] theorem State.setStatus_strict (v : BitVec 8) : (s.setStatus v).strict = s.strict := rfl
@[simp] theorem State.setStatus_pending (v : BitVec 8) : (s.setStatus v).pending = s.pending := rfl
@[simp] theorem State.setStatus_answers (v : BitVec 8) : (s.setStatus v).answers = s.answers := rfl

@[simp] theorem State.setPending_status (rest : List HostEvent) : (s.setPending rest).status = s.status := rfl
@[simp] theorem State.setPending_ctrl (rest : List HostEvent) : (s.setPending rest).ctrl = s.ctrl := rfl
@[simp] theorem State.setPending_password (rest : List HostEvent) : (s.setPending rest).password = s.password := rfl
@[simp] theorem State.setPending_key (rest : List HostEvent) : (s.setPending rest).key = s.key := rfl
@[simp] theorem State.setPending_data (rest : List HostEvent) : (s.setPending rest).data = s.data := rfl
@[simp] theorem State.setPending_result (rest : List HostEvent) : (s.setPending rest).result = s.result := rfl
@[simp] theorem State.setPending_src (rest : List HostEvent) : (s.setPending rest).src = s.src := rfl
@[simp] theorem State.setPending_dst (rest : List HostEvent) : (s.setPending rest).dst = s.dst := rfl
@[simp] theorem State.setPending_msgid (rest : List HostEvent) : (s.setPending rest).msgid = s.msgid := rfl
@[simp] theorem State.setPending_fctl (rest : List HostEvent) : (s.setPending rest).fctl = s.fctl := rfl
@[simp] theorem State.setPending_plen (rest : List HostEvent) : (s.setPending rest).plen = s.plen := rfl
@[simp] theorem State.setPending_ck (rest : List HostEvent) : (s.setPending rest).ck = s.ck := rfl
@[simp] theorem State.setPending_tid (rest : List HostEvent) : (s.setPending rest).tid = s.tid := rfl
@[simp] theorem State.setPending_mode (rest : List HostEvent) : (s.setPending rest).mode = s.mode := rfl
@[simp] theorem State.setPending_skey (rest : List HostEvent) : (s.setPending rest).skey = s.skey := rfl
@[simp] theorem State.setPending_sig (rest : List HostEvent) : (s.setPending rest).sig = s.sig := rfl
@[simp] theorem State.setPending_ectl (rest : List HostEvent) : (s.setPending rest).ectl = s.ectl := rfl
@[simp] theorem State.setPending_k1 (rest : List HostEvent) : (s.setPending rest).k1 = s.k1 := rfl
@[simp] theorem State.setPending_k2 (rest : List HostEvent) : (s.setPending rest).k2 = s.k2 := rfl
@[simp] theorem State.setPending_flen (rest : List HostEvent) : (s.setPending rest).flen = s.flen := rfl
@[simp] theorem State.setPending_dlen (rest : List HostEvent) : (s.setPending rest).dlen = s.dlen := rfl
@[simp] theorem State.setPending_mem (rest : List HostEvent) : (s.setPending rest).mem = s.mem := rfl
@[simp] theorem State.setPending_draw (rest : List HostEvent) : (s.setPending rest).draw = s.draw := rfl
@[simp] theorem State.setPending_strict (rest : List HostEvent) : (s.setPending rest).strict = s.strict := rfl
@[simp] theorem State.setPending_pending (rest : List HostEvent) : (s.setPending rest).pending = rest := rfl
@[simp] theorem State.setPending_answers (rest : List HostEvent) : (s.setPending rest).answers = s.answers := rfl

@[simp] theorem State.answer_status (v : Word) : (s.answer v).status = s.status := rfl
@[simp] theorem State.answer_ctrl (v : Word) : (s.answer v).ctrl = s.ctrl := rfl
@[simp] theorem State.answer_password (v : Word) : (s.answer v).password = s.password := rfl
@[simp] theorem State.answer_key (v : Word) : (s.answer v).key = s.key := rfl
@[simp] theorem State.answer_data (v : Word) : (s.answer v).data = s.data := rfl
@[simp] theorem State.answer_result (v : Word) : (s.answer v).result = s.result := rfl
@[simp] theorem State.answer_src (v : Word) : (s.answer v).src = s.src := rfl
@[simp] theorem State.answer_dst (v : Word) : (s.answer v).dst = s.dst := rfl
@[simp] theorem State.answer_msgid (v : Word) : (s.answer v).msgid = s.msgid := rfl
@[simp] theorem State.answer_fctl (v : Word) : (s.answer v).fctl = s.fctl := rfl
@[simp] theorem State.answer_plen (v : Word) : (s.answer v).plen = s.plen := rfl
@[simp] theorem State.answer_ck (v : Word) : (s.answer v).ck = s.ck := rfl
@[simp] theorem State.answer_tid (v : Word) : (s.answer v).tid = s.tid := rfl
@[simp] theorem State.answer_mode (v : Word) : (s.answer v).mode = s.mode := rfl
@[simp] theorem State.answer_skey (v : Word) : (s.answer v).skey = s.skey := rfl
@[simp] theorem State.answer_sig (v : Word) : (s.answer v).sig = s.sig := rfl
@[simp] theorem State.answer_ectl (v : Word) : (s.answer v).ectl = s.ectl := rfl
@[simp] theorem State.answer_k1 (v : Word) : (s.answer v).k1 = s.k1 := rfl
@[simp] theorem State.answer_k2 (v : Word) : (s.answer v).k2 = s.k2 := rfl
@[simp] theorem State.answer_flen (v : Word) : (s.answer v).flen = s.flen := rfl
@[simp] theorem State.answer_dlen (v : Word) : (s.answer v).dlen = s.dlen := rfl
@[simp] theorem State.answer_mem (v : Word) : (s.answer v).mem = s.mem := rfl
@[simp] theorem State.answer_draw (v : Word) : (s.answer v).draw = s.draw := rfl
@[simp] theorem State.answer_strict (v : Word) : (s.answer v).strict = s.strict := rfl
@[simp] theorem State.answer_pending (v : Word) : (s.answer v).pending = s.pending := rfl
@[simp] theorem State.answer_answers (v : Word) : (s.answer v).answers = v :: s.answers := rfl

@[simp] theorem State.writeByte_status (a : Nat) (v : Byte) : (s.writeByte a v).status = s.status := rfl
@[simp] theorem State.writeByte_ctrl (a : Nat) (v : Byte) : (s.writeByte a v).ctrl = s.ctrl := rfl
@[simp] theorem State.writeByte_password (a : Nat) (v : Byte) : (s.writeByte a v).password = s.password := rfl
@[simp] theorem State.writeByte_key (a : Nat) (v : Byte) : (s.writeByte a v).key = s.key := rfl
@[simp] theorem State.writeByte_data (a : Nat) (v : Byte) : (s.writeByte a v).data = s.data := rfl
@[simp] theorem State.writeByte_result (a : Nat) (v : Byte) : (s.writeByte a v).result = s.result := rfl
@[simp] theorem State.writeByte_src (a : Nat) (v : Byte) : (s.writeByte a v).src = s.src := rfl
@[simp] theorem State.writeByte_dst (a : Nat) (v : Byte) : (s.writeByte a v).dst = s.dst := rfl
@[simp] theorem State.writeByte_msgid (a : Nat) (v : Byte) : (s.writeByte a v).msgid = s.msgid := rfl
@[simp] theorem State.writeByte_fctl (a : Nat) (v : Byte) : (s.writeByte a v).fctl = s.fctl := rfl
@[simp] theorem State.writeByte_plen (a : Nat) (v : Byte) : (s.writeByte a v).plen = s.plen := rfl
@[simp] theorem State.writeByte_ck (a : Nat) (v : Byte) : (s.writeByte a v).ck = s.ck := rfl
@[simp] theorem State.writeByte_tid (a : Nat) (v : Byte) : (s.writeByte a v).tid = s.tid := rfl
@[simp] theorem State.writeByte_mode (a : Nat) (v : Byte) : (s.writeByte a v).mode = s.mode := rfl
@[simp] theorem State.writeByte_skey (a : Nat) (v : Byte) : (s.writeByte a v).skey = s.skey := rfl
@[simp] theorem State.writeByte_sig (a : Nat) (v : Byte) : (s.writeByte a v).sig = s.sig := rfl
@[simp] theorem State.writeByte_ectl (a : Nat) (v : Byte) : (s.writeByte a v).ectl = s.ectl := rfl
@[simp] theorem State.writeByte_k1 (a : Nat) (v : Byte) : (s.writeByte a v).k1 = s.k1 := rfl
@[simp] theorem State.writeByte_k2 (a : Nat) (v : Byte) : (s.writeByte a v).k2 = s.k2 := rfl
@[simp] theorem State.writeByte_flen (a : Nat) (v : Byte) : (s.writeByte a v).flen = s.flen := rfl
@[simp] theorem State.writeByte_dlen (a : Nat) (v : Byte) : (s.writeByte a v).dlen = s.dlen := rfl
@[simp] theorem State.writeByte_mem (a : Nat) (v : Byte) : (s.writeByte a v).mem = Memory.set s.mem a v := rfl
@[simp] theorem State.writeByte_draw (a : Nat) (v : Byte) : (s.writeByte a v).draw = s.draw := rfl
@[simp] theorem State.writeByte_strict (a : Nat) (v : Byte) : (s.writeByte a v).strict = s.strict := rfl
@[simp] theorem State.writeByte_pending (a : Nat) (v : Byte) : (s.writeByte a v).pending = s.pending := rfl
@[simp] theorem State.writeByte_answers (a : Nat) (v : Byte) : (s.writeByte a v).answers = s.answers := rfl

@[simp] theorem State.storeBuf_status (b : Buf) (bytes : List Byte) : (s.storeBuf b bytes).status = s.status := rfl
@[simp] theorem State.storeBuf_ctrl (b : Buf) (bytes : List Byte) : (s.storeBuf b bytes).ctrl = s.ctrl := rfl
@[simp] theorem State.storeBuf_password (b : Buf) (bytes : List Byte) : (s.storeBuf b bytes).password = s.password := rfl
@[simp] theorem State.storeBuf_key (b : Buf) (bytes : List Byte) : (s.storeBuf b bytes).key = s.key := rfl
@[simp] theorem State.storeBuf_data (b : Buf) (bytes : List Byte) : (s.storeBuf b bytes).data = s.data := rfl
@[simp] theorem State.storeBuf_result (b : Buf) (bytes : List Byte) : (s.storeBuf b bytes).result = s.result := rfl
@[simp] theorem State.storeBuf_src (b : Buf) (bytes : List Byte) : (s.storeBuf b bytes).src = s.src := rfl
@[simp] theorem State.storeBuf_dst (b : Buf) (bytes : List Byte) : (s.storeBuf b bytes).dst = s.dst := rfl
@[simp] theorem State.storeBuf_msgid (b : Buf) (bytes : List Byte) : (s.storeBuf b bytes).msgid = s.msgid := rfl
@[simp] theorem State.storeBuf_fctl (b : Buf) (bytes : List Byte) : (s.storeBuf b bytes).fctl = s.fctl := rfl
@[simp] theorem State.storeBuf_plen (b : Buf) (bytes : List Byte) : (s.storeBuf b bytes).plen = s.plen := rfl
@[simp] theorem State.storeBuf_ck (b : Buf) (bytes : List Byte) : (s.storeBuf b bytes).ck = s.ck := rfl
@[simp] theorem State.storeBuf_tid (b : Buf) (bytes : List Byte) : (s.storeBuf b bytes).tid = s.tid := rfl
@[simp] theorem State.storeBuf_mode (b : Buf) (bytes : List Byte) : (s.storeBuf b bytes).mode = s.mode := rfl
@[simp] theorem State.storeBuf_skey (b : Buf) (bytes : List Byte) : (s.storeBuf b bytes).skey = s.skey := rfl
@[simp] theorem State.storeBuf_sig (b : Buf) (bytes : List Byte) : (s.storeBuf b bytes).sig = s.sig := rfl
@[simp] theorem State.storeBuf_ectl (b : Buf) (bytes : List Byte) : (s.storeBuf b bytes).ectl = s.ectl := rfl
@[simp] theorem State.storeBuf_k1 (b : Buf) (bytes : List Byte) : (s.storeBuf b bytes).k1 = s.k1 := rfl
@[simp] theorem State.storeBuf_k2 (b : Buf) (bytes : List Byte) : (s.storeBuf b bytes).k2 = s.k2 := rfl
@[simp] theorem State.storeBuf_flen (b : Buf) (bytes : List Byte) : (s.storeBuf b bytes).flen = s.flen := rfl
@[simp] theorem State.storeBuf_dlen (b : Buf) (bytes : List Byte) : (s.storeBuf b bytes).dlen = s.dlen := rfl
@[simp] theorem State.storeBuf_mem (b : Buf) (bytes : List Byte) : (s.storeBuf b bytes).mem = Memory.setBytes s.mem b.base bytes := rfl
@[simp] theorem State.storeBuf_draw (b : Buf) (bytes : List Byte) : (s.storeBuf b bytes).draw = s.draw := rfl
@[simp] theorem State.storeBuf_strict (b : Buf) (bytes : List Byte) : (s.storeBuf b bytes).strict = s.strict := rfl
@[simp] theorem State.storeBuf_pending (b : Buf) (bytes : List Byte) : (s.storeBuf b bytes).pending = s.pending := rfl
@[simp] theorem State.storeBuf_answers (b : Buf) (bytes : List Byte) : (s.storeBuf b bytes).answers = s.answers := rfl

@[simp] theorem State.setFbuf_status (bytes : List Byte) : (s.setFbuf bytes).status = s.status := rfl
@[simp] theorem State.setFbuf_ctrl (bytes : List Byte) : (s.setFbuf bytes).ctrl = s.ctrl := rfl
@[simp] theorem State.setFbuf_password (bytes : List Byte) : (s.setFbuf bytes).password = s.password := rfl
@[simp] theorem State.setFbuf_key (bytes : List Byte) : (s.setFbuf bytes).key = s.key := rfl
@[simp] theorem State.setFbuf_data (bytes : List Byte) : (s.setFbuf bytes).data = s.data := rfl
@[simp] theorem State.setFbuf_result (bytes : List Byte) : (s.setFbuf bytes).result = s.result := rfl
@[simp] theorem State.setFbuf_src (bytes : List Byte) : (s.setFbuf bytes).src = s.src := rfl
@[simp] theorem State.setFbuf_dst (bytes : List Byte) : (s.setFbuf bytes).dst = s.dst := rfl
@[simp] theorem State.setFbuf_msgid (bytes : List Byte) : (s.setFbuf bytes).msgid = s.msgid := rfl
@[simp] theorem State.setFbuf_fctl (bytes : List Byte) : (s.setFbuf bytes).fctl = s.fctl := rfl
@[simp] theorem State.setFbuf_plen (bytes : List Byte) : (s.setFbuf bytes).plen = s.plen := rfl
@[simp] theorem State.setFbuf_ck (bytes : List Byte) : (s.setFbuf bytes).ck = s.ck := rfl
@[simp] theorem State.setFbuf_tid (bytes : List Byte) : (s.setFbuf bytes).tid = s.tid := rfl
@[simp] theorem State.setFbuf_mode (bytes : List Byte) : (s.setFbuf bytes).mode = s.mode := rfl
@[simp] theorem State.setFbuf_skey (bytes : List Byte) : (s.setFbuf bytes).skey = s.skey := rfl
@[simp] theorem State.setFbuf_sig (bytes : List Byte) : (s.setFbuf bytes).sig = s.sig := rfl
@[simp] theorem State.setFbuf_ectl (bytes : List Byte) : (s.setFbuf bytes).ectl = s.ectl := rfl
@[simp] theorem State.setFbuf_k1 (bytes : List Byte) : (s.setFbuf bytes).k1 = s.k1 := rfl
@[simp] theorem State.setFbuf_k2 (bytes : List Byte) : (s.setFbuf bytes).k2 = s.k2 := rfl
@[simp] theorem State.setFbuf_flen (bytes : List Byte) : (s.setFbuf bytes).flen = BitVec.ofNat 16 bytes.length := rfl
@[simp] theorem State.setFbuf_dlen (bytes : List Byte) : (s.setFbuf bytes).dlen = s.dlen := rfl
@[simp] theorem State.setFbuf_mem (bytes : List Byte) : (s.setFbuf bytes).mem = Memory.setBytes s.mem Buf.fbuf.base bytes := rfl
@[simp] theorem State.setFbuf_draw (bytes : List Byte) : (s.setFbuf bytes).draw = s.draw := rfl
@[simp] theorem State.setFbuf_strict (bytes : List Byte) : (s.setFbuf bytes).strict = s.strict := rfl
@[simp] theorem State.setFbuf_pending (bytes : List Byte) : (s.setFbuf bytes).pending = s.pending := rfl
@[simp] theorem State.setFbuf_answers (bytes : List Byte) : (s.setFbuf bytes).answers = s.answers := rfl

@[simp] theorem State.setDbuf_status (bytes : List Byte) : (s.setDbuf bytes).status = s.status := rfl
@[simp] theorem State.setDbuf_ctrl (bytes : List Byte) : (s.setDbuf bytes).ctrl = s.ctrl := rfl
@[simp] theorem State.setDbuf_password (bytes : List Byte) : (s.setDbuf bytes).password = s.password := rfl
@[simp] theorem State.setDbuf_key (bytes : List Byte) : (s.setDbuf bytes).key = s.key := rfl
@[simp] theorem State.setDbuf_data (bytes : List Byte) : (s.setDbuf bytes).data = s.data := rfl
@[simp] theorem State.setDbuf_result (bytes : List Byte) : (s.setDbuf bytes).result = s.result := rfl
@[simp] theorem State.setDbuf_src (bytes : List Byte) : (s.setDbuf bytes).src = s.src := rfl
@[simp] theorem State.setDbuf_dst (bytes : List Byte) : (s.setDbuf bytes).dst = s.dst := rfl
@[simp] theorem State.setDbuf_msgid (bytes : List Byte) : (s.setDbuf bytes).msgid = s.msgid := rfl
@[simp] theorem State.setDbuf_fctl (bytes : List Byte) : (s.setDbuf bytes).fctl = s.fctl := rfl
@[simp] theorem State.setDbuf_plen (bytes : List Byte) : (s.setDbuf bytes).plen = s.plen := rfl
@[simp] theorem State.setDbuf_ck (bytes : List Byte) : (s.setDbuf bytes).ck = s.ck := rfl
@[simp] theorem State.setDbuf_tid (bytes : List Byte) : (s.setDbuf bytes).tid = s.tid := rfl
@[simp] theorem State.setDbuf_mode (bytes : List Byte) : (s.setDbuf bytes).mode = s.mode := rfl
@[simp] theorem State.setDbuf_skey (bytes : List Byte) : (s.setDbuf bytes).skey = s.skey := rfl
@[simp] theorem State.setDbuf_sig (bytes : List Byte) : (s.setDbuf bytes).sig = s.sig := rfl
@[simp] theorem State.setDbuf_ectl (bytes : List Byte) : (s.setDbuf bytes).ectl = s.ectl := rfl
@[simp] theorem State.setDbuf_k1 (bytes : List Byte) : (s.setDbuf bytes).k1 = s.k1 := rfl
@[simp] theorem State.setDbuf_k2 (bytes : List Byte) : (s.setDbuf bytes).k2 = s.k2 := rfl
@[simp] theorem State.setDbuf_flen (bytes : List Byte) : (s.setDbuf bytes).flen = s.flen := rfl
@[simp] theorem State.setDbuf_dlen (bytes : List Byte) : (s.setDbuf bytes).dlen = BitVec.ofNat 16 bytes.length := rfl
@[simp] theorem State.setDbuf_mem (bytes : List Byte) : (s.setDbuf bytes).mem = Memory.setBytes s.mem Buf.dbuf.base bytes := rfl
@[simp] theorem State.setDbuf_draw (bytes : List Byte) : (s.setDbuf bytes).draw = s.draw := rfl
@[simp] theorem State.setDbuf_strict (bytes : List Byte) : (s.setDbuf bytes).strict = s.strict := rfl
@[simp] theorem State.setDbuf_pending (bytes : List Byte) : (s.setDbuf bytes).pending = s.pending := rfl
@[simp] theorem State.setDbuf_answers (bytes : List Byte) : (s.setDbuf bytes).answers = s.answers := rfl

@[simp] theorem State.setResult_status (v : Word) : (s.setResult v).status = s.status := rfl
@[simp] theorem State.setResult_ctrl (v : Word) : (s.setResult v).ctrl = s.ctrl := rfl
@[simp] theorem State.setResult_password (v : Word) : (s.setResult v).password = s.password := rfl
@[simp] theorem State.setResult_key (v : Word) : (s.setResult v).key = s.key := rfl
@[simp] theorem State.setResult_data (v : Word) : (s.setResult v).data = s.data := rfl
@[simp] theorem State.setResult_result (v : Word) : (s.setResult v).result = v := rfl
@[simp] theorem State.setResult_src (v : Word) : (s.setResult v).src = s.src := rfl
@[simp] theorem State.setResult_dst (v : Word) : (s.setResult v).dst = s.dst := rfl
@[simp] theorem State.setResult_msgid (v : Word) : (s.setResult v).msgid = s.msgid := rfl
@[simp] theorem State.setResult_fctl (v : Word) : (s.setResult v).fctl = s.fctl := rfl
@[simp] theorem State.setResult_plen (v : Word) : (s.setResult v).plen = s.plen := rfl
@[simp] theorem State.setResult_ck (v : Word) : (s.setResult v).ck = s.ck := rfl
@[simp] theorem State.setResult_tid (v : Word) : (s.setResult v).tid = s.tid := rfl
@[simp] theorem State.setResult_mode (v : Word) : (s.setResult v).mode = s.mode := rfl
@[simp] theorem State.setResult_skey (v : Word) : (s.setResult v).skey = s.skey := rfl
@[simp] theorem State.setResult_sig (v : Word) : (s.setResult v).sig = s.sig := rfl
@[simp] theorem State.setResult_ectl (v : Word) : (s.setResult v).ectl = s.ectl := rfl
@[simp] theorem State.setResult_k1 (v : Word) : (s.setResult v).k1 = s.k1 := rfl
@[simp] theorem State.setResult_k2 (v : Word) : (s.setResult v).k2 = s.k2 := rfl
@[simp] theorem State.setResult_flen (v : Word) : (s.setResult v).flen = s.flen := rfl
@[simp] theorem State.setResult_dlen (v : Word) : (s.setResult v).dlen = s.dlen := rfl
@[simp] theorem State.setResult_mem (v : Word) : (s.setResult v).mem = s.mem := rfl
@[simp] theorem State.setResult_draw (v : Word) : (s.setResult v).draw = s.draw := rfl
@[simp] theorem State.setResult_strict (v : Word) : (s.setResult v).strict = s.strict := rfl
@[simp] theorem State.setResult_pending (v : Word) : (s.setResult v).pending = s.pending := rfl
@[simp] theorem State.setResult_answers (v : Word) : (s.setResult v).answers = s.answers := rfl

@[simp] theorem State.setCk_status (v : Byte) : (s.setCk v).status = s.status := rfl
@[simp] theorem State.setCk_ctrl (v : Byte) : (s.setCk v).ctrl = s.ctrl := rfl
@[simp] theorem State.setCk_password (v : Byte) : (s.setCk v).password = s.password := rfl
@[simp] theorem State.setCk_key (v : Byte) : (s.setCk v).key = s.key := rfl
@[simp] theorem State.setCk_data (v : Byte) : (s.setCk v).data = s.data := rfl
@[simp] theorem State.setCk_result (v : Byte) : (s.setCk v).result = s.result := rfl
@[simp] theorem State.setCk_src (v : Byte) : (s.setCk v).src = s.src := rfl
@[simp] theorem State.setCk_dst (v : Byte) : (s.setCk v).dst = s.dst := rfl
@[simp] theorem State.setCk_msgid (v : Byte) : (s.setCk v).msgid = s.msgid := rfl
@[simp] theorem State.setCk_fctl (v : Byte) : (s.setCk v).fctl = s.fctl := rfl
@[simp] theorem State.setCk_plen (v : Byte) : (s.setCk v).plen = s.plen := rfl
@[simp] theorem State.setCk_ck (v : Byte) : (s.setCk v).ck = v := rfl
@[simp] theorem State.setCk_tid (v : Byte) : (s.setCk v).tid = s.tid := rfl
@[simp] theorem State.setCk_mode (v : Byte) : (s.setCk v).mode = s.mode := rfl
@[simp] theorem State.setCk_skey (v : Byte) : (s.setCk v).skey = s.skey := rfl
@[simp] theorem State.setCk_sig (v : Byte) : (s.setCk v).sig = s.sig := rfl
@[simp] theorem State.setCk_ectl (v : Byte) : (s.setCk v).ectl = s.ectl := rfl
@[simp] theorem State.setCk_k1 (v : Byte) : (s.setCk v).k1 = s.k1 := rfl
@[simp] theorem State.setCk_k2 (v : Byte) : (s.setCk v).k2 = s.k2 := rfl
@[simp] theorem State.setCk_flen (v : Byte) : (s.setCk v).flen = s.flen := rfl
@[simp] theorem State.setCk_dlen (v : Byte) : (s.setCk v).dlen = s.dlen := rfl
@[simp] theorem State.setCk_mem (v : Byte) : (s.setCk v).mem = s.mem := rfl
@[simp] theorem State.setCk_draw (v : Byte) : (s.setCk v).draw = s.draw := rfl
@[simp] theorem State.setCk_strict (v : Byte) : (s.setCk v).strict = s.strict := rfl
@[simp] theorem State.setCk_pending (v : Byte) : (s.setCk v).pending = s.pending := rfl
@[simp] theorem State.setCk_answers (v : Byte) : (s.setCk v).answers = s.answers := rfl

@[simp] theorem State.setKeystream_status (ks : Word × Word) : (s.setKeystream ks).status = s.status := rfl
@[simp] theorem State.setKeystream_ctrl (ks : Word × Word) : (s.setKeystream ks).ctrl = s.ctrl := rfl
@[simp] theorem State.setKeystream_password (ks : Word × Word) : (s.setKeystream ks).password = s.password := rfl
@[simp] theorem State.setKeystream_key (ks : Word × Word) : (s.setKeystream ks).key = s.key := rfl
@[simp] theorem State.setKeystream_data (ks : Word × Word) : (s.setKeystream ks).data = s.data := rfl
@[simp] theorem State.setKeystream_result (ks : Word × Word) : (s.setKeystream ks).result = s.result := rfl
@[simp] theorem State.setKeystream_src (ks : Word × Word) : (s.setKeystream ks).src = s.src := rfl
@[simp] theorem State.setKeystream_dst (ks : Word × Word) : (s.setKeystream ks).dst = s.dst := rfl
@[simp] theorem State.setKeystream_msgid (ks : Word × Word) : (s.setKeystream ks).msgid = s.msgid := rfl
@[simp] theorem State.setKeystream_fctl (ks : Word × Word) : (s.setKeystream ks).fctl = s.fctl := rfl
@[simp] theorem State.setKeystream_plen (ks : Word × Word) : (s.setKeystream ks).plen = s.plen := rfl
@[simp] theorem State.setKeystream_ck (ks : Word × Word) : (s.setKeystream ks).ck = s.ck := rfl
@[simp] theorem State.setKeystream_tid (ks : Word × Word) : (s.setKeystream ks).tid = s.tid := rfl
@[simp] theorem State.setKeystream_mode (ks : Word × Word) : (s.setKeystream ks).mode = s.mode := rfl
@[simp] theorem State.setKeystream_skey (ks : Word × Word) : (s.setKeystream ks).skey = s.skey := rfl
@[simp] theorem State.setKeystream_sig (ks : Word × Word) : (s.setKeystream ks).sig = s.sig := rfl
@[simp] theorem State.setKeystream_ectl (ks : Word × Word) : (s.setKeystream ks).ectl = s.ectl := rfl
@[simp] theorem State.setKeystream_k1 (ks : Word × Word) : (s.setKeystream ks).k1 = ks.1 := rfl
@[simp] theorem State.setKeystream_k2 (ks : Word × Word) : (s.setKeystream ks).k2 = ks.2 := rfl
@[simp] theorem State.setKeystream_flen (ks : Word × Word) : (s.setKeystream ks).flen = s.flen := rfl
@[simp] theorem State.setKeystream_dlen (ks : Word × Word) : (s.setKeystream ks).dlen = s.dlen := rfl
@[simp] theorem State.setKeystream_mem (ks : Word × Word) : (s.setKeystream ks).mem = s.mem := rfl
@[simp] theorem State.setKeystream_draw (ks : Word × Word) : (s.setKeystream ks).draw = s.draw := rfl
@[simp] theorem State.setKeystream_strict (ks : Word × Word) : (s.setKeystream ks).strict = s.strict := rfl
@[simp] theorem State.setKeystream_pending (ks : Word × Word) : (s.setKeystream ks).pending = s.pending := rfl
@[simp] theorem State.setKeystream_answers (ks : Word × Word) : (s.setKeystream ks).answers = s.answers := rfl

@[simp] theorem State.setSig_status (v : Word) : (s.setSig v).status = s.status := rfl
@[simp] theorem State.setSig_ctrl (v : Word) : (s.setSig v).ctrl = s.ctrl := rfl
@[simp] theorem State.setSig_password (v : Word) : (s.setSig v).password = s.password := rfl
@[simp] theorem State.setSig_key (v : Word) : (s.setSig v).key = s.key := rfl
@[simp] theorem State.setSig_data (v : Word) : (s.setSig v).data = s.data := rfl
@[simp] theorem State.setSig_result (v : Word) : (s.setSig v).result = s.result := rfl
@[simp] theorem State.setSig_src (v : Word) : (s.setSig v).src = s.src := rfl
@[simp] theorem State.setSig_dst (v : Word) : (s.setSig v).dst = s.dst := rfl
@[simp] theorem State.setSig_msgid (v : Word) : (s.setSig v).msgid = s.msgid := rfl
@[simp] theorem State.setSig_fctl (v : Word) : (s.setSig v).fctl = s.fctl := rfl
@[simp] theorem State.setSig_plen (v : Word) : (s.setSig v).plen = s.plen := rfl
@[simp] theorem State.setSig_ck (v : Word) : (s.setSig v).ck = s.ck := rfl
@[simp] theorem State.setSig_tid (v : Word) : (s.setSig v).tid = s.tid := rfl
@[simp] theorem State.setSig_mode (v : Word) : (s.setSig v).mode = s.mode := rfl
@[simp] theorem State.setSig_skey (v : Word) : (s.setSig v).skey = s.skey := rfl
@[simp] theorem State.setSig_sig (v : Word) : (s.setSig v).sig = v := rfl
@[simp] theorem State.setSig_ectl (v : Word) : (s.setSig v).ectl = s.ectl := rfl
@[simp] theorem State.setSig_k1 (v : Word) : (s.setSig v).k1 = s.k1 := rfl
@[simp] theorem State.setSig_k2 (v : Word) : (s.setSig v).k2 = s.k2 := rfl
@[simp] theorem State.setSig_flen (v : Word) : (s.setSig v).flen = s.flen := rfl
@[simp] theorem State.setSig_dlen (v : Word) : (s.setSig v).dlen = s.dlen := rfl
@[simp] theorem State.setSig_mem (v : Word) : (s.setSig v).mem = s.mem := rfl
@[simp] theorem State.setSig_draw (v : Word) : (s.setSig v).draw = s.draw := rfl
@[simp] theorem State.setSig_strict (v : Word) : (s.setSig v).strict = s.strict := rfl
@[simp] theorem State.setSig_pending (v : Word) : (s.setSig v).pending = s.pending := rfl
@[simp] theorem State.setSig_answers (v : Word) : (s.setSig v).answers = s.answers := rfl

@[simp] theorem State.setFrame_status (f : Frame) : (s.setFrame f).status = s.status := rfl
@[simp] theorem State.setFrame_ctrl (f : Frame) : (s.setFrame f).ctrl = s.ctrl := rfl
@[simp] theorem State.setFrame_password (f : Frame) : (s.setFrame f).password = s.password := rfl
@[simp] theorem State.setFrame_key (f : Frame) : (s.setFrame f).key = s.key := rfl
@[simp] theorem State.setFrame_data (f : Frame) : (s.setFrame f).data = s.data := rfl
@[simp] theorem State.setFrame_result (f : Frame) : (s.setFrame f).result = s.result := rfl
@[simp] theorem State.setFrame_src (f : Frame) : (s.setFrame f).src = f.sourceAddr := rfl
@[simp] theorem State.setFrame_dst (f : Frame) : (s.setFrame f).dst = f.destAddr := rfl
@[simp] theorem State.setFrame_msgid (f : Frame) : (s.setFrame f).msgid = f.msgId := rfl
@[simp] theorem State.setFrame_fctl (f : Frame) : (s.setFrame f).fctl = presenceBit f.payload.isSome := rfl
@[simp] theorem State.setFrame_plen (f : Frame) : (s.setFrame f).plen = BitVec.ofNat 8 (f.payload.getD []).length := rfl
@[simp] theorem State.setFrame_ck (f : Frame) : (s.setFrame f).ck = s.ck := rfl
@[simp] theorem State.setFrame_tid (f : Frame) : (s.setFrame f).tid = s.tid := rfl
@[simp] theorem State.setFrame_mode (f : Frame) : (s.setFrame f).mode = s.mode := rfl
@[simp] theorem State.setFrame_skey (f : Frame) : (s.setFrame f).skey = s.skey := rfl
@[simp] theorem State.setFrame_sig (f : Frame) : (s.setFrame f).sig = s.sig := rfl
@[simp] theorem State.setFrame_ectl (f : Frame) : (s.setFrame f).ectl = s.ectl := rfl
@[simp] theorem State.setFrame_k1 (f : Frame) : (s.setFrame f).k1 = s.k1 := rfl
@[simp] theorem State.setFrame_k2 (f : Frame) : (s.setFrame f).k2 = s.k2 := rfl
@[simp] theorem State.setFrame_flen (f : Frame) : (s.setFrame f).flen = s.flen := rfl
@[simp] theorem State.setFrame_dlen (f : Frame) : (s.setFrame f).dlen = s.dlen := rfl
@[simp] theorem State.setFrame_mem (f : Frame) : (s.setFrame f).mem = Memory.setBytes s.mem Buf.pbuf.base (f.payload.getD []) := rfl
@[simp] theorem State.setFrame_draw (f : Frame) : (s.setFrame f).draw = s.draw := rfl
@[simp] theorem State.setFrame_strict (f : Frame) : (s.setFrame f).strict = s.strict := rfl
@[simp] theorem State.setFrame_pending (f : Frame) : (s.setFrame f).pending = s.pending := rfl
@[simp] theorem State.setFrame_answers (f : Frame) : (s.setFrame f).answers = s.answers := rfl

@[simp] theorem State.setHeader_status (t : Word) (m : Half) (k g : Word) (h : Bool) : (s.setHeader t m k g h).status = s.status := rfl
@[simp] theorem State.setHeader_ctrl (t : Word) (m : Half) (k g : Word) (h : Bool) : (s.setHeader t m k g h).ctrl = s.ctrl := rfl
@[simp] theorem State.setHeader_password (t : Word) (m : Half) (k g : Word) (h : Bool) : (s.setHeader t m k g h).password = s.password := rfl
@[simp] theorem State.setHeader_key (t : Word) (m : Half) (k g : Word) (h : Bool) : (s.setHeader t m k g h).key = s.key := rfl
@[simp] theorem State.setHeader_data (t : Word) (m : Half) (k g : Word) (h : Bool) : (s.setHeader t m k g h).data = s.data := rfl
@[simp] theorem State.setHeader_result (t : Word) (m : Half) (k g : Word) (h : Bool) : (s.setHeader t m k g h).result = s.result := rfl
@[simp] theorem State.setHeader_src (t : Word) (m : Half) (k g : Word) (h : Bool) : (s.setHeader t m k g h).src = s.src := rfl
@[simp] theorem State.setHeader_dst (t : Word) (m : Half) (k g : Word) (h : Bool) : (s.setHeader t m k g h).dst = s.dst := rfl
@[simp] theorem State.setHeader_msgid (t : Word) (m : Half) (k g : Word) (h : Bool) : (s.setHeader t m k g h).msgid = s.msgid := rfl
@[simp] theorem State.setHeader_fctl (t : Word) (m : Half) (k g : Word) (h : Bool) : (s.setHeader t m k g h).fctl = s.fctl := rfl
@[simp] theorem State.setHeader_plen (t : Word) (m : Half) (k g : Word) (h : Bool) : (s.setHeader t m k g h).plen = s.plen := rfl
@[simp] theorem State.setHeader_ck (t : Word) (m : Half) (k g : Word) (h : Bool) : (s.setHeader t m k g h).ck = s.ck := rfl
@[simp] theorem State.setHeader_tid (t : Word) (m : Half) (k g : Word) (h : Bool) : (s.setHeader t m k g h).tid = t := rfl
@[simp] theorem State.setHeader_mode (t : Word) (m : Half) (k g : Word) (h : Bool) : (s.setHeader t m k g h).mode = m := rfl
@[simp] theorem State.setHeader_skey (t : Word) (m : Half) (k g : Word) (h : Bool) : (s.setHeader t m k g h).skey = k := rfl
@[simp] theorem State.setHeader_sig (t : Word) (m : Half) (k g : Word) (h : Bool) : (s.setHeader t m k g h).sig = g := rfl
@[simp] theorem State.setHeader_ectl (t : Word) (m : Half) (k g : Word) (h : Bool) : (s.setHeader t m k g h).ectl = presenceBit h := rfl
@[simp] theorem State.setHeader_k1 (t : Word) (m : Half) (k g : Word) (h : Bool) : (s.setHeader t m k g h).k1 = s.k1 := rfl
@[simp] theorem State.setHeader_k2 (t : Word) (m : Half) (k g : Word) (h : Bool) : (s.setHeader t m k g h).k2 = s.k2 := rfl
@[simp] theorem State.setHeader_flen (t : Word) (m : Half) (k g : Word) (h : Bool) : (s.setHeader t m k g h).flen = s.flen := rfl
@[simp] theorem State.setHeader_dlen (t : Word) (m : Half) (k g : Word) (h : Bool) : (s.setHeader t m k g h).dlen = s.dlen := rfl
@[simp] theorem State.setHeader_mem (t : Word) (m : Half) (k g : Word) (h : Bool) : (s.setHeader t m k g h).mem = s.mem := rfl
@[simp] theorem State.setHeader_draw (t : Word) (m : Half) (k g : Word) (h : Bool) : (s.setHeader t m k g h).draw = s.draw := rfl
@[simp] theorem State.setHeader_strict (t : Word) (m : Half) (k g : Word) (h : Bool) : (s.setHeader t m k g h).strict = s.strict := rfl
@[simp] theorem State.setHeader_pending (t : Word) (m : Half) (k g : Word) (h : Bool) : (s.setHeader t m k g h).pending = s.pending := rfl
@[simp] theorem State.setHeader_answers (t : Word) (m : Half) (k g : Word) (h : Bool) : (s.setHeader t m k g h).answers = s.answers := rfl

@[simp] theorem State.resetEvent_mem : s.resetEvent.mem = [] := rfl
@[simp] theorem State.resetEvent_status : s.resetEvent.status = 0#8 := rfl
@[simp] theorem State.resetEvent_draw : s.resetEvent.draw = s.draw + 1 := rfl
@[simp] theorem State.resetEvent_strict : s.resetEvent.strict = s.strict := rfl
@[simp] theorem State.resetEvent_pending : s.resetEvent.pending = s.pending := rfl
@[simp] theorem State.resetEvent_answers : s.resetEvent.answers = s.answers := rfl

end Sys2Proof.Machine
end

