-- ==== Sys2Proof/Laws/Memory.lean ====
section
/-! SUPPORT. The buffers' laws: read after write, what a write leaves alone, and the canonical form. -/

namespace Sys2Proof.Machine

/-- A written byte is read back; every other offset keeps what it had. -/
theorem Memory.get?_set (m : List Host.Cell) (a : Nat) (b : Byte) (a' : Nat) :
    Memory.get? (Memory.set m a b) a' = if a' = a then some b else Memory.get? m a' := by
  induction m with
  | nil => simp only [Memory.set, Memory.get?]; grind
  | cons c rest ih =>
    obtain ⟨k, v⟩ := c
    simp only [Memory.set]
    split
    · simp only [Memory.get?]; grind
    · split <;> simp only [Memory.get?] <;> grind

/-- Bytes written from `a` up are read back; every other offset keeps what it had. -/
theorem Memory.get?_setBytes (bs : List Byte) (m : List Host.Cell) (a a' : Nat) :
    Memory.get? (Memory.setBytes m a bs) a' =
      if a ≤ a' ∧ a' < a + bs.length then bs[a' - a]? else Memory.get? m a' := by
  induction bs generalizing m a with
  | nil => simp [Memory.setBytes]
  | cons b bs ih =>
    rw [Memory.setBytes, ih, Memory.get?_set]
    by_cases h : a' = a
    · subst h; simp
    · rcases Nat.lt_or_ge a' a with hlt | hge
      · rw [if_neg (by omega), if_neg h, if_neg (by omega)]
      · obtain ⟨d, rfl⟩ : ∃ d, a' = a + 1 + d := ⟨a' - (a + 1), by omega⟩
        have e1 : a + 1 + d - (a + 1) = d := by omega
        have e2 : a + 1 + d - a = d + 1 := by omega
        simp only [e1, e2, List.getElem?_cons_succ, List.length_cons]
        grind

/-- Every offset of a written memory was written before or is the one written. -/
theorem Memory.mem_set {m : List Host.Cell} {a : Nat} {b : Byte} {c : Host.Cell} (h : c ∈ Memory.set m a b) :
    c = (a, b) ∨ c ∈ m := by
  induction m with
  | nil => simpa [Memory.set] using h
  | cons d rest ih =>
    obtain ⟨k, v⟩ := d
    simp only [Memory.set] at h
    split at h
    · simpa using h
    · split at h <;> grind

/-- Writing a byte of a buffer keeps the canonical form. -/
theorem Memory.wf_set {m : List Host.Cell} {a : Nat} (b : Byte) (h : Memory.wf m) (ha : inBuffer a = true) :
    Memory.wf (Memory.set m a b) := by
  refine ⟨?_, fun c hc => ?_⟩
  · have hp := h.1
    clear h
    induction m with
    | nil => simp [Memory.set]
    | cons d rest ih =>
      obtain ⟨k, v⟩ := d
      obtain ⟨h1, h2⟩ := List.pairwise_cons.mp hp
      simp only [Memory.set]
      split
      · refine List.pairwise_cons.mpr ⟨fun c hc => ?_, hp⟩
        rcases List.mem_cons.mp hc with rfl | hc
        · assumption
        · exact Nat.lt_trans (by assumption) (h1 c hc)
      · split
        · subst_vars; exact List.pairwise_cons.mpr ⟨fun c hc => h1 c hc, h2⟩
        · refine List.pairwise_cons.mpr ⟨fun c hc => ?_, ih h2⟩
          rcases Memory.mem_set hc with rfl | hc
          · simp only; omega
          · exact h1 c hc
  · rcases Memory.mem_set hc with rfl | hc
    · exact ha
    · exact h.2 c hc

/-- Writing bytes of buffers keeps the canonical form. -/
theorem Memory.wf_setBytes (bs : List Byte) {m : List Host.Cell} {a : Nat} (h : Memory.wf m)
    (ha : ∀ i, i < bs.length → inBuffer (a + i) = true) : Memory.wf (Memory.setBytes m a bs) := by
  induction bs generalizing m a with
  | nil => exact h
  | cons b bs ih =>
    refine ih (Memory.wf_set b h (by simpa using ha 0 (by simp))) fun i hi => ?_
    have := ha (i + 1) (by simpa using hi)
    rwa [show a + 1 + i = a + (i + 1) by omega]

/-- The reset state's memory is in canonical form. -/
theorem Memory.wf_reset : Memory.wf State.reset.mem := by
  constructor
  · exact List.Pairwise.nil
  · intro c hc; cases hc

/-- The offsets of a buffer. -/
theorem Buf.holds_iff (b : Buf) (a : Nat) : b.holds a = true ↔ b.base ≤ a ∧ a < b.base + b.cap := by
  simp only [Buf.holds, Bool.and_eq_true, decide_eq_true_eq]

/-- The offsets of the three buffers (20_memory.md R63). -/
theorem inBuffer_iff (a : Nat) : inBuffer a = true ↔ (0x100 ≤ a ∧ a < 0x305) ∨ (0x400 ≤ a ∧ a < 0x514) := by
  simp only [inBuffer, Bool.or_eq_true, Buf.holds_iff, Buf.base, Buf.cap]
  omega

/-- Every byte of a buffer's first `cap` is a byte of a buffer. -/
theorem Buf.inBuffer_base (b : Buf) {i : Nat} (h : i < b.cap) : inBuffer (b.base + i) = true := by
  cases b <;> simp only [Buf.cap] at h <;> simp only [inBuffer_iff, Buf.base] <;> omega

/-- Reading one byte after a byte write. -/
@[simp] theorem State.readByte_writeByte (s : State) (a a' : Nat) (v : Byte) :
    (s.writeByte a v).readByte a' = if a' = a then v else s.readByte a' := by
  simp only [State.readByte, State.writeByte_mem, Memory.get?_set, State.writeByte_draw]
  split <;> rfl

/-- Reading one byte after a state change that writes bytes from `a` up and keeps the draw. -/
theorem State.readByte_of_setBytes {s t : State} {a : Nat} {bs : List Byte}
    (hm : t.mem = Memory.setBytes s.mem a bs) (hd : t.draw = s.draw) (a' : Nat) :
    t.readByte a' = if a ≤ a' ∧ a' < a + bs.length then bs.getD (a' - a) 0#8 else s.readByte a' := by
  simp only [State.readByte, hm, hd, Memory.get?_setBytes]
  split
  · rename_i h
    rw [List.getElem?_eq_getElem (by omega), List.getD_eq_getElem _ _ (by omega)]; rfl
  · rfl

/-- What a state change that writes bytes from `a` up leaves alone. -/
theorem State.readByte_outside {s t : State} {a : Nat} {bs : List Byte} (hm : t.mem = Memory.setBytes s.mem a bs)
    (hd : t.draw = s.draw) {a' : Nat} (h : ¬(a ≤ a' ∧ a' < a + bs.length)) : t.readByte a' = s.readByte a' := by
  rw [State.readByte_of_setBytes hm hd, if_neg h]

/-- The number of bytes read off a buffer. -/
@[simp] theorem State.bufBytes_length (s : State) (b : Buf) (n : Nat) : (s.bufBytes b n).length = n := by
  simp [State.bufBytes]

/-- One of the bytes read off a buffer. -/
theorem State.bufBytes_getElem? (s : State) (b : Buf) (n i : Nat) :
    (s.bufBytes b n)[i]? = if i < n then some (s.bufByte b i) else none := by
  simp only [State.bufBytes, List.getElem?_map]
  split
  · rename_i h; rw [List.getElem?_range h]; rfl
  · rename_i h; rw [List.getElem?_eq_none (by simpa using h)]; rfl

/-- The bytes written to a buffer are read back. -/
theorem State.bufBytes_of_setBytes {s t : State} {b : Buf} {bs : List Byte}
    (hm : t.mem = Memory.setBytes s.mem b.base bs) (hd : t.draw = s.draw) : t.bufBytes b bs.length = bs := by
  refine List.ext_getElem? fun i => ?_
  rw [State.bufBytes_getElem?]
  split
  · rename_i h
    rw [State.bufByte, State.readByte_of_setBytes hm hd, if_pos (by omega), Nat.add_sub_cancel_left,
      List.getD_eq_getElem _ _ h, List.getElem?_eq_getElem h]
  · rename_i h; rw [List.getElem?_eq_none (by omega)]

/-- Two states that read alike over a buffer's first `n` bytes give the same bytes. -/
theorem State.bufBytes_congr {s t : State} {b : Buf} {n : Nat}
    (h : ∀ i, i < n → t.readByte (b.base + i) = s.readByte (b.base + i)) : t.bufBytes b n = s.bufBytes b n := by
  refine List.ext_getElem? fun i => ?_
  rw [State.bufBytes_getElem?, State.bufBytes_getElem?]
  split
  · rename_i hi; simp only [State.bufByte, h i hi]
  · rfl

end Sys2Proof.Machine
end

