-- ==== Sys2Proof/Laws/Operands.lean ====
section
/-! SUPPORT. The record views of the registers (10_state.md R49): what `Frame()` and `Envelope()` are, and that writing a
record and reading it back gives the record. -/

namespace Sys2Proof.Machine

/-- A presence bit is clear or set. -/
theorem bit_cases (x : BitVec 1) : x = 0#1 ∨ x = 1#1 := by revert x; decide

/-- `Frame()` with HASP clear. -/
theorem State.frame_absent {s : State} (h : s.fctl = 0#1) :
    s.frame = { sourceAddr := s.src, destAddr := s.dst, msgId := s.msgid, payload := none } := by
  simp [State.frame, State.hasp, h]

/-- `Frame()` with HASP set. -/
theorem State.frame_present {s : State} (h : s.fctl = 1#1) :
    s.frame = { sourceAddr := s.src, destAddr := s.dst, msgId := s.msgid,
                payload := some (s.bufBytes .pbuf s.plen.toNat) } := by
  simp [State.frame, State.hasp, h]

/-- `Frame() <- f` and `Frame()`: the payload's length fits PLEN. -/
theorem State.frame_setFrame (s : State) (f : Frame) (h : (f.payload.getD []).length ≤ 255) :
    (s.setFrame f).frame = f := by
  obtain ⟨sa, da, m, _ | p⟩ := f
  · exact State.frame_absent (s := s.setFrame _) rfl
  · have hl : (s.setFrame ⟨sa, da, m, some p⟩).plen.toNat = p.length := by
      simp only [State.setFrame_plen, Option.getD_some, BitVec.toNat_ofNat] at h ⊢; omega
    have hb : (s.setFrame ⟨sa, da, m, some p⟩).bufBytes .pbuf p.length = p :=
      State.bufBytes_of_setBytes (s := s) rfl rfl
    rw [State.frame_present (s := s.setFrame _) rfl, hl, hb]
    rfl

/-- Two states with equal frame registers that read alike over the payload have the same frame. -/
theorem State.frame_congr {s t : State} (hs : t.src = s.src) (hd : t.dst = s.dst) (hm : t.msgid = s.msgid)
    (hf : t.fctl = s.fctl) (hp : t.plen = s.plen)
    (hb : s.fctl = 1#1 → t.bufBytes .pbuf s.plen.toNat = s.bufBytes .pbuf s.plen.toNat) : t.frame = s.frame := by
  rcases bit_cases s.fctl with h | h
  · rw [State.frame_absent h, State.frame_absent (hf.trans h), hs, hd, hm]
  · rw [State.frame_present h, State.frame_present (hf.trans h), hs, hd, hm, hp, hb h]

/-- `Envelope()` with HASF clear. -/
theorem State.envelope_absent {s : State} (h : s.ectl = 0#1) :
    s.envelope = { transactionId := s.tid, mode := s.mode, stationKey := s.skey, signature := s.sig,
                   innerFrame := none } := by
  simp [State.envelope, State.hasf, h]

/-- `Envelope()` with HASF set. -/
theorem State.envelope_present {s : State} (h : s.ectl = 1#1) :
    s.envelope = { transactionId := s.tid, mode := s.mode, stationKey := s.skey, signature := s.sig,
                   innerFrame := some s.frame } := by
  simp [State.envelope, State.hasf, h]

/-- The fields `Envelope() <- e` leaves alone, whatever `e` is. -/
theorem State.setEnvelope_others (s : State) (e : Envelope) :
    s.setEnvelope e =
      { s with tid := e.transactionId, mode := e.mode, skey := e.stationKey, sig := e.signature,
               ectl := presenceBit e.innerFrame.isSome,
               src := (s.setEnvelope e).src, dst := (s.setEnvelope e).dst, msgid := (s.setEnvelope e).msgid,
               fctl := (s.setEnvelope e).fctl, plen := (s.setEnvelope e).plen, mem := (s.setEnvelope e).mem } := by
  obtain ⟨t, m, k, g, _ | f⟩ := e <;> rfl

/-- `Envelope() <- e` and `Envelope()`. -/
theorem State.envelope_setEnvelope (s : State) (e : Envelope)
    (h : ∀ f, e.innerFrame = some f → (f.payload.getD []).length ≤ 255) : (s.setEnvelope e).envelope = e := by
  obtain ⟨t, m, k, g, _ | f⟩ := e
  · exact State.envelope_absent (s := s.setEnvelope _) rfl
  · rw [State.envelope_present (s := s.setEnvelope _) rfl]
    have hf := State.frame_setFrame (s.setHeader t m k g true) f (h f rfl)
    simp only [State.setEnvelope, hf]
    rfl

end Sys2Proof.Machine
end

