-- ==== Sys2Proof/Laws/Ops.lean ====
section
/-! SUPPORT. What the shared operations can do, once each: how a command ends, what an access reaches, what a step is. -/

namespace Sys2Proof.Machine

@[simp] theorem commit_ok (s t : State) : commit s (.ok t) = .next (t.setStatus statusOk) := rfl

@[simp] theorem commit_error (s : State) (k : ErrorKind) : commit s (.error k) = .next (s.setStatus k.code) := rfl

/-- All that `commit` can do: the kind's code and nothing else, or the results and STATUS 0. -/
theorem commit_next {s t : State} {r : Except ErrorKind State} (h : commit s r = .next t) :
    (∃ k, r = .error k ∧ t = s.setStatus k.code) ∨ (∃ u, r = .ok u ∧ t = u.setStatus statusOk) := by
  cases r with
  | error k => exact .inl ⟨k, rfl, by simpa using h.symm⟩
  | ok u => exact .inr ⟨u, rfl, by simpa using h.symm⟩

/-- A command's end is always a next state. -/
theorem commit_completes (s : State) (r : Except ErrorKind State) : ∃ t, commit s r = .next t := by
  cases r with
  | error k => exact ⟨_, rfl⟩
  | ok u => exact ⟨_, rfl⟩

/-- An error's code is 1 to 7. -/
theorem ErrorKind.code_range (k : ErrorKind) : 1 ≤ k.code.toNat ∧ k.code.toNat ≤ 7 := by
  cases k <;> decide

/-- A presence bit is set exactly when the thing is present. -/
@[simp] theorem presenceBit_beq (p : Bool) : (presenceBit p == 1#1) = p := by
  cases p <;> decide

/-- The register an aligned 4-byte access reaches. -/
@[simp] theorem target_register (r : Reg) : target r.offset 4 = .register r := by
  cases r <;> decide

/-- The byte a 1-byte access to a buffer reaches. -/
@[simp] theorem target_buffer (b : Buf) {i : Nat} (h : i < b.cap) : target (b.base + i) 1 = .bufferByte (b.base + i) := by
  have hb := Buf.inBuffer_base b h
  have h1 : ¬ windowSize ≤ b.base + i := by
    cases b <;> simp only [Buf.cap] at h <;> simp only [windowSize, Buf.base] <;> omega
  have h2 : ¬ b.base + i < registerRegionEnd := by
    cases b <;> simp only [registerRegionEnd, Buf.base] <;> omega
  simp [target, h1, h2, hb]

/-- The step with an access pending is that access. -/
theorem step_of_pending {s : State} {e : HostEvent} {rest : List HostEvent} (h : s.pending = e :: rest) :
    step s = hostEvent (s.setPending rest) e := by
  simp [step, h]

/-- The step with no access pending. -/
theorem step_of_idle {s : State} (h : s.pending = []) : step s = .next s := by
  simp [step, h]

end Sys2Proof.Machine
end

