-- ==== Sys2Proof/Laws/Exec.lean ====
section
/-! SUPPORT. All that a command can do, once: an error kind's code and nothing else, or its own results and STATUS 0. -/

namespace Sys2Proof.Machine

/-- The results of a command that succeeds from `s`, as the state `u` before `STATUS <- 0`. -/
def Results (i : Instr) (s u : State) : Prop :=
  match i with
  | .transform => u = s.setResult (transform s.key s.data)
  | .cksum => u = s.setCk s.frame.checksum
  | .fenc => ∃ bytes, frameEncode s.frame = .ok bytes ∧ u = s.setFbuf bytes
  | .fdec => s.flen.toNat ≤ Buf.fbuf.cap ∧ ∃ f, frameDecode s.fbufBytes s.strict = .ok f ∧ u = s.setFrame f
  | .kstream => u = s.setKeystream (keystreamWords s.skey s.tid)
  | .crypt => s.flen.toNat ≤ Buf.fbuf.cap ∧ u = s.storeBuf .fbuf (xorKeystream s.skey s.tid s.fbufBytes)
  | .esign => s.hasf = true ∧ u = s.setSig (signature s.password s.tid s.skey s.frame.checksum)
  | .eser => ∃ bytes, envSerialize s.envelope = .ok bytes ∧ u = s.setDbuf bytes
  | .edes => s.dlen.toNat ≤ Buf.dbuf.cap ∧
      ∃ e, envDeserialize s.dbufBytes s.pwen s.password s.strict = .ok e ∧ u = s.setEnvelope e
  | .wireShortFrame _ _ _ _ | .wireLongFrameHead _ _ _ _ | .wireEnvelopeHeader _ _ _ _ | .wireEnvelopeBodyHead _ => False

/-- All that `exec` can do when it answers a next state. -/
theorem exec_next {i : Instr} {s t : State} (h : exec i s = .next t) :
    (∃ k : ErrorKind, t = s.setStatus k.code) ∨ ∃ u, Results i s u ∧ t = u.setStatus statusOk := by
  cases i <;> simp only [exec, execTransform, execCksum, execFenc, execFdec, execKstream, execCrypt, execEsign, execEser,
    execEdes, execWireShortFrame, execWireLongFrameHead, execWireEnvelopeHeader, execWireEnvelopeBodyHead, reduceCtorEq] at h
  all_goals
    rcases commit_next h with ⟨k, _, ht⟩ | ⟨u, hu, ht⟩
    · exact .inl ⟨k, ht⟩
    refine .inr ⟨u, ?_, ht⟩
  case transform => cases hu; rfl
  case cksum => cases hu; rfl
  case kstream => cases hu; rfl
  case fenc =>
    split at hu
    · cases hu
    · rename_i b hb; cases hu; exact ⟨b, hb, rfl⟩
  case fdec =>
    split at hu
    · cases hu
    · rename_i hl
      split at hu
      · cases hu
      · rename_i f hf; cases hu; exact ⟨Nat.le_of_not_lt hl, f, hf, rfl⟩
  case crypt =>
    split at hu
    · cases hu
    · rename_i hl; cases hu; exact ⟨Nat.le_of_not_lt hl, rfl⟩
  case esign =>
    split at hu
    · rename_i hh; cases hu; exact ⟨hh, rfl⟩
    · cases hu
  case eser =>
    split at hu
    · cases hu
    · rename_i b hb; cases hu; exact ⟨b, hb, rfl⟩
  case edes =>
    split at hu
    · cases hu
    · rename_i hl
      split at hu
      · cases hu
      · rename_i e he; cases hu; exact ⟨Nat.le_of_not_lt hl, e, he, rfl⟩

/-- A command is a commit of some result. -/
theorem exec_eq_commit {i : Instr} (h : i.isCommand = true) (s : State) : ∃ r, exec i s = commit s r := by
  cases i <;> simp only [Instr.isCommand, Bool.false_eq_true] at h
  case transform => exact ⟨_, execTransform.eq_1 s⟩
  case cksum => exact ⟨_, execCksum.eq_1 s⟩
  case fenc => exact ⟨_, execFenc.eq_1 s⟩
  case fdec => exact ⟨_, execFdec.eq_1 s⟩
  case kstream => exact ⟨_, execKstream.eq_1 s⟩
  case crypt => exact ⟨_, execCrypt.eq_1 s⟩
  case esign => exact ⟨_, execEsign.eq_1 s⟩
  case eser => exact ⟨_, execEser.eq_1 s⟩
  case edes => exact ⟨_, execEdes.eq_1 s⟩

/-- The bytes a decoded envelope's frame registers take, all inside PBUF. -/
theorem setEnvelope_mem (s : State) (e : Envelope) :
    (s.setEnvelope e).mem = Memory.setBytes s.mem Buf.pbuf.base ((e.innerFrame.bind Frame.payload).getD []) := by
  simp only [State.setEnvelope]
  split <;> rename_i h <;> rw [h] <;> rfl

/-- Where a command may write: nowhere, or from byte 0 of one buffer and inside it (20_memory.md R74). -/
theorem exec_mem {i : Instr} {s t : State} (h : exec i s = .next t) :
    t.draw = s.draw ∧ (t.mem = s.mem ∨ ∃ (b : Buf) (bs : List Byte), t.mem = Memory.setBytes s.mem b.base bs ∧
      bs.length ≤ b.cap ∧
      ((b = .pbuf ∧ (i = .fdec ∨ i = .edes)) ∨ (b = .fbuf ∧ (i = .fenc ∨ i = .crypt)) ∨ (b = .dbuf ∧ i = .eser))) := by
  rcases exec_next h with ⟨k, rfl⟩ | ⟨u, hu, rfl⟩
  · simp
  · cases i <;> simp only [Results] at hu
    case fenc =>
      obtain ⟨b, hb, rfl⟩ := hu
      have := frameEncode_length hb
      exact ⟨by simp, .inr ⟨.fbuf, b, by simp, by simp only [Buf.cap]; omega, by simp⟩⟩
    case fdec =>
      obtain ⟨_, f, hf, rfl⟩ := hu
      have := frameDecode_payload_length hf
      exact ⟨by simp, .inr ⟨.pbuf, _, by simp; rfl, by simp only [Buf.cap]; omega, by simp⟩⟩
    case crypt =>
      obtain ⟨hl, rfl⟩ := hu
      exact ⟨by simp, .inr ⟨.fbuf, _, by simp; rfl, by simp [xorKeystream, State.fbufBytes]; omega, by simp⟩⟩
    case esign => obtain ⟨_, rfl⟩ := hu; simp
    case eser =>
      obtain ⟨b, hb, rfl⟩ := hu
      have := envSerialize_length hb
      exact ⟨by simp, .inr ⟨.dbuf, b, by simp, by simp only [Buf.cap]; omega, by simp⟩⟩
    case edes =>
      obtain ⟨_, e, he, rfl⟩ := hu
      refine ⟨by rw [State.setStatus_draw, State.setEnvelope_others], .inr ⟨.pbuf, _, by simp [setEnvelope_mem]; rfl, ?_, by simp⟩⟩
      rcases envDeserialize_ok he with ⟨_, rfl, _⟩ | ⟨_, _, _, f, hf, rfl, _⟩
      · simp [parseHeader]
      · have := frameDecode_payload_length hf
        simp only [parseHeader, Buf.cap, Option.bind_some]; omega
    all_goals subst hu; simp

end Sys2Proof.Machine
end

