-- ==== Sys2Proof/Laws/PerInstr.lean ====
section
/-! SUPPORT. Facts about every row of the opcode table, one lemma for each constructor. -/

namespace Sys2Proof.Laws

/-- The number of bits of a row's words (30_encoding.md R80, R84, R85, R89, R90). -/
def wordBits : Words → Nat
  | .command _ => 32
  | .wire _ bytes => 8 * bytes.length

/-- The number of bits the opcode table gives a row. -/
def tableBits : Instr → Nat
  | .transform | .cksum | .fenc | .fdec | .kstream | .crypt | .esign | .eser | .edes => 32
  | .wireShortFrame _ _ _ _ => 48
  | .wireLongFrameHead _ _ _ _ => 56
  | .wireEnvelopeHeader _ _ _ _ => 112
  | .wireEnvelopeBodyHead _ => 8

/-- The encoder writes as many bits as the table gives the row. -/
def EncodedLength.Statement (i : Instr) : Prop := wordBits (encode i) = tableBits i

theorem EncodedLength.transform : EncodedLength.Statement .transform := rfl
theorem EncodedLength.cksum : EncodedLength.Statement .cksum := rfl
theorem EncodedLength.fenc : EncodedLength.Statement .fenc := rfl
theorem EncodedLength.fdec : EncodedLength.Statement .fdec := rfl
theorem EncodedLength.kstream : EncodedLength.Statement .kstream := rfl
theorem EncodedLength.crypt : EncodedLength.Statement .crypt := rfl
theorem EncodedLength.esign : EncodedLength.Statement .esign := rfl
theorem EncodedLength.eser : EncodedLength.Statement .eser := rfl
theorem EncodedLength.edes : EncodedLength.Statement .edes := rfl
theorem EncodedLength.wireShortFrame (dst src msg ck : Byte) :
    EncodedLength.Statement (.wireShortFrame dst src msg ck) := rfl
theorem EncodedLength.wireLongFrameHead (lb dst src msg : Byte) :
    EncodedLength.Statement (.wireLongFrameHead lb dst src msg) := rfl
theorem EncodedLength.wireEnvelopeHeader (tid : Word) (mode : Half) (skey sig : Word) :
    EncodedLength.Statement (.wireEnvelopeHeader tid mode skey sig) := rfl
theorem EncodedLength.wireEnvelopeBodyHead (lm : Byte) :
    EncodedLength.Statement (.wireEnvelopeBodyHead lm) := rfl

end Sys2Proof.Laws
end

