-- ==== Sys2Proof/Tests/Slice0.lean ====
section
/-! SUPPORT. Tests, each expected result from spec/ (the vector's name in the comment), and a witness for the hypotheses of
each statement that has some. -/

namespace Sys2Proof.Tests

open Sys2Proof.Machine

/-! ### Helpers -/

/-- Bytes from numbers. -/
def bytes (l : List Nat) : List Byte := l.map (BitVec.ofNat 8)

/-- The next state of an outcome, if it is one. -/
def after (o : Host.Outcome State Fault Refusal) : Option State :=
  match o with
  | .next s => some s
  | .fault _ => none
  | .refused _ => none

/-- The reset state with the frame registers and PBUF loaded. -/
def withFrame (src dst msg : Byte) (payload : Option (List Byte)) : State :=
  State.reset.setFrame { sourceAddr := src, destAddr := dst, msgId := msg, payload := payload }

/-- The reset state with FBUF and FLEN loaded. -/
def withFbuf (l : List Byte) : State := State.reset.setFbuf l

/-- The reset state with DBUF and DLEN loaded. -/
def withDbuf (l : List Byte) : State := State.reset.setDbuf l

/-- A state with STRICT as given and FBUF and FLEN loaded. -/
theorem fbuf_loaded (strict : Bool) {l : List Byte} (h : l.length < 65536) :
    ∃ s : State, s.strict = strict ∧ s.bufBytes .fbuf s.flen.toNat = l := by
  refine ⟨State.setFbuf { State.reset with strict := strict } l, rfl, ?_⟩
  have hl : (State.setFbuf { State.reset with strict := strict } l).flen.toNat = l.length := by
    simp only [State.setFbuf_flen, BitVec.toNat_ofNat]; omega
  rw [hl]
  exact State.bufBytes_of_setBytes (s := State.reset) rfl rfl

/-- The read request of S7 (95_test_vectors.md). -/
def request : List Byte := bytes [0x01, 0x22, 0x10, 0x10, 0, 0, 0, 0, 0x19, 0, 0x01, 0]

/-- The request's frame (T42). -/
def requestFrame : List Byte :=
  bytes [0x68, 0x0F, 0x0F, 0x68, 0x01, 0x1F, 0x4D, 0x01, 0x22, 0x10, 0x10, 0, 0, 0, 0, 0x19, 0, 0x01, 0, 0xCA, 0x16]

/-- The request's datagram (T110). -/
def requestDatagram : List Byte :=
  bytes [0x01, 0, 0, 0, 0, 0, 0, 0, 0, 0, 0xE6, 0xED, 0x3D, 0x01, 0x0F, 0xC9, 0x0F, 0x0F, 0x68, 0xA0, 0x1F, 0x4D, 0x01,
    0xF6, 0x10, 0x10, 0, 0xD4, 0, 0, 0x19, 0xD4, 0x01, 0, 0xCA, 0xC2]

/-- A handshake datagram (T111). -/
def handshake : List Byte := bytes [0x01, 0, 0, 0, 0x11, 0x11, 0x0D, 0xF0, 0xA5, 0xA5, 0, 0, 0, 0]

/-! ### Well-formedness: each check refuses an ill-formed term -/

theorem test_wf_short_frame_checksum :
    (Instr.wireShortFrame 0x01 0x1F 0x4D 0x6E).wf = false ∧ (Instr.wireShortFrame 0x01 0x1F 0x4D 0x6D).wf = true := by
  decide

theorem test_wf_long_frame_length :
    (Instr.wireLongFrameHead 2 0x01 0x1F 0x4D).wf = false ∧ (Instr.wireLongFrameHead 3 0x01 0x1F 0x4D).wf = true := by
  decide

theorem test_wf_body_marker :
    (Instr.wireEnvelopeBodyHead 1).wf = false ∧ (Instr.wireEnvelopeBodyHead 2).wf = false ∧
      (Instr.wireEnvelopeBodyHead 0).wf = true ∧ (Instr.wireEnvelopeBodyHead 3).wf = true := by
  decide

/-! ### Decoding: words written out from 30_encoding.md -/

/-- R80, the table of the nine values. -/
theorem test_decode_commands :
    decodeTableWord 32 0x00000001 = some .transform ∧ decodeTableWord 32 0x00000002 = some .cksum ∧
    decodeTableWord 32 0x00000003 = some .fenc ∧ decodeTableWord 32 0x00000004 = some .fdec ∧
    decodeTableWord 32 0x00000005 = some .kstream ∧ decodeTableWord 32 0x00000006 = some .crypt ∧
    decodeTableWord 32 0x00000007 = some .esign ∧ decodeTableWord 32 0x00000008 = some .eser ∧
    decodeTableWord 32 0x00000009 = some .edes := by
  decide

/-- R81: zero, ten, and a valid low byte under a set high bit name no command. -/
theorem test_decode_illegal_commands :
    decode (.command 0x00000000#32) = .error (.illegalCommand 0x00000000#32) ∧
    decode (.command 0x0000000A#32) = .error (.illegalCommand 0x0000000A#32) ∧
    decode (.command 0x00000101#32) = .error (.illegalCommand 0x00000101#32) := by
  decide

/-- R84: the bytes 10 01 1F 4D 6D 16. -/
theorem test_decode_short_frame :
    decodeTableWord 48 0x166D4D1F0110 = some (.wireShortFrame 0x01 0x1F 0x4D 0x6D) := by decide

/-- R85: the bytes 68 0F 0F 68 01 1F 4D. -/
theorem test_decode_long_frame_head :
    decodeTableWord 56 0x4D1F01680F0F68 = some (.wireLongFrameHead 0x0F 0x01 0x1F 0x4D) := by decide

/-- R89: the bytes 01 00 00 00 | 11 11 | 0D F0 A5 A5 | E6 ED 3D 01. -/
theorem test_decode_envelope_header :
    decodeTableWord 112 0x013DEDE6A5A5F00D111100000001 =
      some (.wireEnvelopeHeader 0x00000001#32 0x1111#16 0xA5A5F00D#32 0x013DEDE6#32) := by decide

/-- R90: the byte 0F. -/
theorem test_decode_envelope_body_head : decodeTableWord 8 0x0F = some (.wireEnvelopeBodyHead 0x0F) := by decide

/-- R84, R85: wrong markers, unequal length bytes, wrong byte counts. -/
theorem test_decode_wire_refusals :
    decode (.wire .shortFrame (bytes [0x10, 1, 2, 3, 6, 0x17])) = .error (.wrongMarker .shortFrame) ∧
    decode (.wire .shortFrame (bytes [0x10, 1, 2, 3, 6])) = .error (.wrongLength .shortFrame) ∧
    decode (.wire .longFrameHead (bytes [0x68, 3, 3, 0x69, 1, 2, 3])) = .error (.wrongMarker .longFrameHead) ∧
    decode (.wire .longFrameHead (bytes [0x68, 3, 4, 0x68, 1, 2, 3])) = .error .unequalLengthBytes ∧
    decodeTableWord 40 0 = none := by
  decide

/-! ### One step of each command, from 95_test_vectors.md -/

/-- T7. -/
theorem test_transform :
    (after (exec .transform { State.reset with key := 2, data := 3 })).map (·.result) = some 0x7D0#32 := by decide

/-- T8: zero data. -/
theorem test_transform_zero_data :
    (after (exec .transform { State.reset with key := 0x12345678, data := 0 })).map (·.result) = some 0x08E2A07B#32 := by
  decide

/-- T34. -/
theorem test_cksum : (after (exec .cksum (withFrame 0x1F 0x01 0x4D (some request)))).map (·.ck) = some 0xCA#8 := by
  decide

/-- T23: 256 folds to 1. -/
theorem test_cksum_folds : (after (exec .cksum (withFrame 0x01 0xFF 0x00 none))).map (·.ck) = some 0x01#8 := by decide

/-- T42. -/
theorem test_fenc_long :
    (after (exec .fenc (withFrame 0x1F 0x01 0x4D (some request)))).map (·.fbufBytes) = some requestFrame := by decide

/-- T41: an empty payload is a payload. -/
theorem test_fenc_empty_payload :
    (after (exec .fenc (withFrame 0x1F 0x01 0x4D (some [])))).map (·.fbufBytes) =
      some (bytes [0x68, 0x03, 0x03, 0x68, 0x01, 0x1F, 0x4D, 0x6D, 0x16]) := by decide

/-- T63. -/
theorem test_fdec_long :
    (after (exec .fdec (withFbuf requestFrame))).map (·.frame) =
      some { sourceAddr := 0x1F, destAddr := 0x01, msgId := 0x4D, payload := some request } := by decide

/-- T57: the checksum is checked before the terminator. -/
theorem test_fdec_checksum_before_terminator :
    (after (exec .fdec (withFbuf (bytes [0x10, 0x01, 0x1F, 0x4D, 0x6E, 0x17])))).map (·.status) = some 2#8 := by decide

/-- 42_envelope.md R142's example. -/
theorem test_kstream :
    (after (exec .kstream { State.reset with skey := 0xA5A5F00D, tid := 2 })).map (fun t => (t.k1, t.k2)) =
      some (0xBB02B9D9#32, 0x564B63C5#32) := by decide

/-- 42_envelope.md R146's example. -/
theorem test_crypt :
    (after (exec .crypt { withFbuf requestFrame with tid := 1 })).map (·.fbufBytes) = some (requestDatagram.drop 15) := by
  decide

/-- 42_envelope.md R149's first example. -/
theorem test_esign :
    (after (exec .esign { withFrame 0x1F 0x01 0x4D (some request) with password := 0x12345678, tid := 1, ectl := 1 })).map
      (·.sig) = some 0x013DEDE6#32 := by decide

/-- 42_envelope.md R149's second example: a sum of zero. -/
theorem test_esign_zero_sum :
    (after (exec .esign { State.reset with password := 0x12345678, tid := 0xFFFFFF00, ectl := 1 })).map (·.sig) =
      some 0x08E2A07B#32 := by decide

/-- T110. -/
theorem test_eser :
    (after (exec .eser
      { withFrame 0x1F 0x01 0x4D (some request) with tid := 1, sig := 0x013DEDE6, ectl := 1 })).map (·.dbufBytes) =
      some requestDatagram := by decide

/-- T117: the mode is checked before the payload's length. -/
theorem test_eser_protocol_error_first :
    (after (exec .eser { State.reset with mode := 0x1111, ectl := 1, fctl := 1, plen := 241 })).map (·.status) =
      some 5#8 := by decide

/-- T119. -/
theorem test_edes :
    (after (exec .edes { withDbuf requestDatagram with ctrl := 1, password := 0x12345678 })).map
      (fun t => (t.status, t.envelope)) =
      some (0#8, { transactionId := 1, mode := 0, stationKey := 0, signature := 0x013DEDE6,
                   innerFrame := some { sourceAddr := 0x1F, destAddr := 0x01, msgId := 0x4D, payload := some request } }) := by
  decide

/-- 42_envelope.md R160 (d) on T119's datagram: another password, SignatureMismatch, and nothing else changes
(60_exceptions.md R207). -/
theorem test_edes_other_password :
    after (exec .edes { withDbuf requestDatagram with ctrl := 1, password := 0x12345679 }) =
      some { withDbuf requestDatagram with ctrl := 1, password := 0x12345679, status := 3 } := by decide

/-! ### Host accesses -/

/-- 20_memory.md R64's example: writing 0x1234 to DST stores 0x34. -/
theorem test_write_truncates :
    (after (step { State.reset with pending := lineWr .dst 0x1234 })).map (·.dst) = some 0x34#8 := by decide

/-- Program 4, line 36: the whole word is compared. -/
theorem test_illegal_command :
    (after (step { State.reset with pending := lineWr .cmd 0x101 })).map (·.status) = some 7#8 := by decide

/-- Program 4, line 38: a write to read-only STATUS is ignored. -/
theorem test_status_write_is_ignored :
    after (step { State.reset with status := 7, pending := lineWr .status 0 }) = some { State.reset with status := 7 } := by
  decide

/-- 30_encoding.md R83: `LOAD FBUF, 10 01` is two byte writes and the length. -/
theorem test_load_line :
    lineLoad .fbuf (bytes [0x10, 0x01]) = [.write 0x200 1 0x10, .write 0x201 1 0x01, .write 0x050 4 2] := by decide

/-! ### Witnesses: for each statement with hypotheses, states and operands that meet them, each clause at a boundary -/

theorem witness_EncodeOfDecodeIsTheWords :
    decode (.command 9#32) = .ok .edes ∧ decode (.wire .envelopeBodyHead [0xFF]) = .ok (.wireEnvelopeBodyHead 0xFF) := by
  decide

/-- A short frame, a long frame, a header-only envelope, and an envelope with a frame. -/
theorem witness_EncodersEmitTheTableFormats :
    (∃ b, frameEncode { sourceAddr := 1, destAddr := 2, msgId := 3, payload := some request } = .ok b) ∧
    (∃ d, envSerialize
      { transactionId := 1, mode := 0x1111, stationKey := 0, signature := 0, innerFrame := none } = .ok d) ∧
    (∃ b, frameEncode { sourceAddr := 1, destAddr := 2, msgId := 3, payload := none } = .ok b) ∧
    ∃ d, envSerialize { transactionId := 1, mode := 0, stationKey := 0, signature := 0,
                        innerFrame := some { sourceAddr := 1, destAddr := 2, msgId := 3, payload := none } } = .ok d :=
  ⟨⟨_, rfl⟩, ⟨_, rfl⟩, ⟨_, rfl⟩, ⟨_, rfl⟩⟩

theorem witness_StepRunsTheDecodedInstruction :
    { State.reset with pending := [.write 0x000 4 9] }.pending = .write 0x000 4 9 :: [] ∧
      decodeTableWord (8 * 4) 9 = some .edes := by decide

theorem witness_FetchWordIsRunByTheNextStep :
    decodeTableWord 32 1 = some .transform ∧ decodeTableWord 48 0x166D4D1F0110 = some (.wireShortFrame 0x01 0x1F 0x4D 0x6D) := by
  decide

theorem witness_IdleBlockHoldsItsState : State.reset.pending = [] := rfl

/-- Zero, ten and the largest word. -/
theorem witness_IllegalCommandSetsStatusSeven :
    ∀ v ∈ [0, 10, 2 ^ 32 - 1], v < 2 ^ 32 ∧ (v = 0 ∨ 10 ≤ v) ∧
      { State.reset with pending := [.write 0x000 4 v] }.pending = .write 0x000 4 v :: [] := by
  decide

theorem witness_StatusIsNotSticky :
    { State.reset with pending := [.write 0x000 4 0], status := 3 }.pending = .write 0x000 4 0 :: [] := rfl

theorem witness_CommandsEndInSuccessOrChangeStatusOnly : Instr.edes.isCommand = true := rfl

theorem witness_StepKeepsTheInvariant :
    State.Inv { State.reset with pending := [.write 0x513 1 7] } ∧
      ∃ t, step { State.reset with pending := [.write 0x513 1 7] } = .next t :=
  ⟨⟨Memory.wf_reset, by decide⟩, ⟨_, rfl⟩⟩

theorem witness_ResetEventClearsTheBlock : { State.reset with pending := [.reset] }.pending = .reset :: [] := rfl

/-- The last register, and the last byte of each buffer. -/
theorem witness_ConformingRunReachesItsEnd :
    safeRun [.write 0x054 4 276, .read 0x1FF 1, .write 0x304 1 0, .read 0x513 1, .write 0x000 4 9, .reset] := by
  unfold safeRun; decide

/-- The first and the last RW register and the first RO one, with the largest value. -/
theorem witness_RegisterWritesStoreTheLowBits :
    (2 ^ 32 - 1 : Nat) < 2 ^ 32 ∧
    { State.reset with pending := [.write 0x008 4 (2 ^ 32 - 1)] }.pending = .write 0x008 4 (2 ^ 32 - 1) :: [] ∧
    { State.reset with pending := [.write 0x054 4 (2 ^ 32 - 1)] }.pending = .write 0x054 4 (2 ^ 32 - 1) :: [] ∧
    { State.reset with pending := [.write 0x004 4 0] }.pending = .write 0x004 4 0 :: [] := by decide

/-- CMD, and the last register. -/
theorem witness_RegisterReadsReturnTheWidenedValue :
    { State.reset with pending := [.read 0x000 4] }.pending = .read 0x000 4 :: [] ∧
    { State.reset with pending := [.read 0x054 4] }.pending = .read 0x054 4 :: [] := by decide

/-- The last byte of each buffer. -/
theorem witness_BufferBytesAreWrittenAndReadOneByOne :
    255 < 256 ∧ 260 < 261 ∧ 275 < 276 ∧
      (∀ a ∈ [0x100 + 255, 0x200 + 260, 0x400 + 275],
        { State.reset with pending := [.write a 1 0xFF] }.pending = .write a 1 0xFF :: [] ∧
        { State.reset with pending := [.read a 1] }.pending = .read a 1 :: []) := by decide

/-- One access at a boundary of each clause. -/
theorem witness_AccessesWithoutMeaningAreRefused :
    (0x054 < 0x100 ∧ (2 ≠ 4 ∨ 0x054 % 4 ≠ 0 ∨ 0x058 ≤ 0x054)) ∧ (0x053 < 0x100 ∧ (4 ≠ 4 ∨ 0x053 % 4 ≠ 0 ∨ 0x058 ≤ 0x053)) ∧
    (0x058 < 0x100 ∧ (4 ≠ 4 ∨ 0x058 % 4 ≠ 0 ∨ 0x058 ≤ 0x058)) ∧ (0x100 ≤ 0x304 ∧ 0x304 < 0x305 ∧ 4 ≠ 1) ∧
    (0x400 ≤ 0x513 ∧ 0x513 < 0x514 ∧ 4 ≠ 1) ∧ (0x305 ≤ 0x305 ∧ 0x305 < 0x400) ∧ (0x514 ≤ 0x7FF ∧ 0x7FF < 0x800) ∧
    { State.reset with pending := [.read 0x305 1] }.pending = .read 0x305 1 :: [] ∧
    { State.reset with pending := [.write 0x7FF 1 0] }.pending = .write 0x7FF 1 0 :: [] := by decide

/-- Both sides: the first offset outside the window. -/
theorem witness_OnlyAccessesOutsideTheWindowFault :
    step { State.reset with pending := [.read 0x800 1] } = .fault .outsideWindow ∧
      { State.reset with pending := [.read 0x800 1] }.pending = .read 0x800 1 :: [] := ⟨rfl, rfl⟩

/-- A command of each kind of footprint. -/
theorem witness_RegistersAreWrittenOnlyByTheirCommands :
    (∃ t, exec .transform State.reset = .next t) ∧ (∃ t, exec .edes (withDbuf handshake) = .next t) :=
  ⟨⟨_, rfl⟩, ⟨_, rfl⟩⟩

/-- FENC at the last byte of PBUF, EDES at the last bytes of FBUF and DBUF, ESER at a byte of no buffer. -/
theorem witness_BuffersAreWrittenOnlyByTheirCommands :
    ((∃ t, exec .fenc State.reset = .next t) ∧ Buf.pbuf.holds 0x1FF = true) ∧
    ((∃ t, exec .edes State.reset = .next t) ∧ Buf.fbuf.holds 0x304 = true ∧ Buf.dbuf.holds 0x513 = true) ∧
    ((∃ t, exec .eser State.reset = .next t) ∧ inBuffer 0x305 = false) :=
  ⟨⟨⟨_, rfl⟩, rfl⟩, ⟨⟨_, rfl⟩, rfl, rfl⟩, ⟨_, rfl⟩, rfl⟩

/-- The first byte at FLEN, and the last byte of DBUF while FLEN is over 0x200. -/
theorem witness_BytesAboveTheLengthsAreNotRead :
    (¬ (withFbuf (bytes [0x10, 0x01, 0x1F, 0x4D, 0x6D, 0x16])).belowLength 0x206 ∧
      ∃ t, exec .fdec (withFbuf (bytes [0x10, 0x01, 0x1F, 0x4D, 0x6D, 0x16])) = .next t) ∧
    (¬ { State.reset with flen := 0xFFFF }.belowLength 0x513 ∧
      ∃ t, exec .crypt { State.reset with flen := 0xFFFF } = .next t) :=
  ⟨⟨by unfold State.belowLength Buf.below; decide, ⟨_, rfl⟩⟩, by unfold State.belowLength Buf.below; decide, ⟨_, rfl⟩⟩

/-- The first byte at PLEN, and the first at DLEN. -/
theorem witness_BytesAboveTheLengthsAreNotRead_other_buffers :
    (¬ (withFrame 0x1F 0x01 0x4D (some request)).belowLength 0x10C ∧
      ∃ t, exec .cksum (withFrame 0x1F 0x01 0x4D (some request)) = .next t) ∧
    (¬ (withDbuf handshake).belowLength 0x40E ∧ ∃ t, exec .edes (withDbuf handshake) = .next t) :=
  ⟨⟨by unfold State.belowLength Buf.below; decide, ⟨_, rfl⟩⟩, by unfold State.belowLength Buf.below; decide, ⟨_, rfl⟩⟩

theorem witness_EdesIgnoresPasswordWhenNoneIsConfigured :
    (withDbuf handshake).ctrl = 0#1 ∧ ∃ t, exec .edes (withDbuf handshake) = .next t := ⟨rfl, ⟨_, rfl⟩⟩

theorem witness_TransformClosedForms : (1#32 : Word) ≠ 0#32 := by decide

theorem witness_ChecksumIgnoresByteOrder : (bytes [1, 2]).Perm (bytes [2, 1]) := by decide

/-- The two kinds of change, the first with other bytes zero and not zero. -/
theorem witness_ChecksumCatchesOneByteChanges :
    ((0x00#8 : Byte) ≠ 0xFF#8 ∧ ((0x00#8 : Byte) = 0x00#8 ∧ (0xFF#8 : Byte) = 0xFF#8)) ∧
    (0x00#8 : Byte) ≠ 0xFE#8 ∧
    (∀ b ∈ bytes [0] ++ bytes [0], b = 0#8) ∧ ¬ (∀ b ∈ bytes [0] ++ bytes [1], b = 0#8) := by decide

/-- No payload; the longest payload; the shortest that is too long. -/
theorem witness_FencCommandWritesTheFrame :
    State.reset.fctl = 0#1 ∧
    ({ State.reset with fctl := 1, plen := 240 }.fctl = 1#1 ∧ { State.reset with fctl := 1, plen := 240 }.plen.toNat ≤ 240) ∧
    ({ State.reset with fctl := 1, plen := 241 }.fctl = 1#1 ∧ 240 < { State.reset with fctl := 1, plen := 241 }.plen.toNat) := by
  decide

/-- T52, T55, T56: the success and the two failures. -/
theorem witness_FdecCommandOnShortFrames :
    ((withFbuf [0x10, 0x01, 0x1F, 0x4D, 0x6D, 0x16]).bufBytes .fbuf
        (withFbuf [0x10, 0x01, 0x1F, 0x4D, 0x6D, 0x16]).flen.toNat = [0x10, 0x01, 0x1F, 0x4D, 0x6D, 0x16] ∧
      (0x6D : Byte) = endAroundSum [0x01, 0x1F, 0x4D]) ∧
    ((withFbuf [0x10, 0x01, 0x1F, 0x4D, 0x6E, 0x16]).bufBytes .fbuf
        (withFbuf [0x10, 0x01, 0x1F, 0x4D, 0x6E, 0x16]).flen.toNat = [0x10, 0x01, 0x1F, 0x4D, 0x6E, 0x16] ∧
      (0x6E : Byte) ≠ endAroundSum [0x01, 0x1F, 0x4D]) ∧
    (withFbuf [0x10, 0x01, 0x1F, 0x4D, 0x6D, 0x17]).bufBytes .fbuf
      (withFbuf [0x10, 0x01, 0x1F, 0x4D, 0x6D, 0x17]).flen.toNat = [0x10, 0x01, 0x1F, 0x4D, 0x6D, 0x17] := by
  decide

/-- Payloads of 0, 240, 241 and 252 bytes, the right checksum, for both values of STRICT. -/
theorem witness_FdecCommandOnLongFrames :
    ∀ n ∈ [0, 240, 241, 252], ∀ strict : Bool, ∃ (s : State) (lb ck : Byte) (p : List Byte),
      p.length = n ∧ s.strict = strict ∧ ck = endAroundSum (p ++ [0x01, 0x02, 0x03]) ∧ lb.toNat = p.length + 3 ∧
      s.bufBytes .fbuf s.flen.toNat = [0x68, lb, lb, 0x68, 0x01, 0x02, 0x03] ++ p ++ [ck, 0x16] := by
  intro n hn strict
  have hn' : n ≤ 252 := by
    simp only [List.mem_cons, List.not_mem_nil, or_false] at hn; omega
  obtain ⟨s, hs, hb⟩ := fbuf_loaded strict (l := [0x68, BitVec.ofNat 8 (n + 3), BitVec.ofNat 8 (n + 3), 0x68, 0x01, 0x02,
    0x03] ++ List.replicate n 0 ++ [endAroundSum (List.replicate n 0 ++ [0x01, 0x02, 0x03]), 0x16]) (by simp; omega)
  refine ⟨s, BitVec.ofNat 8 (n + 3), _, List.replicate n 0, List.length_replicate, hs, rfl, ?_, hb⟩
  rw [List.length_replicate, BitVec.toNat_ofNat]; omega

/-- T50: no byte at all. -/
theorem witness_FdecCommandOnOtherBytes :
    (¬∃ dst src msg ck term : Byte,
      State.reset.bufBytes .fbuf State.reset.flen.toNat = [0x10#8, dst, src, msg, ck, term]) ∧
    ¬∃ (lb dst src msg ck term : Byte) (p : List Byte), lb.toNat = p.length + 3 ∧
      State.reset.bufBytes .fbuf State.reset.flen.toNat = [0x68#8, lb, lb, 0x68#8, dst, src, msg] ++ p ++ [ck, term] := by
  have h : State.reset.bufBytes .fbuf State.reset.flen.toNat = [] := rfl
  rw [h]
  constructor
  · rintro ⟨_, _, _, _, _, h⟩; cases h
  · rintro ⟨_, _, _, _, _, _, _, _, h⟩; cases h

/-- T75. -/
theorem witness_OverlongFramesAreFramingErrors :
    261 < { State.reset with flen := 262 }.flen.toNat ∧ 261 < (List.replicate 262 (0#8)).length := by
  refine ⟨by decide, ?_⟩
  rw [List.length_replicate]; omega

/-- Decoded payloads of 240 and 241 bytes. -/
theorem witness_StrictBoundsTheDecodedPayload :
    ∀ n ∈ [240, 241], ∃ (b : List Byte) (f : Frame), frameDecode b false = .ok f ∧ (f.payload.getD []).length = n := by
  intro n hn
  have hn' : n ≤ 241 := by
    simp only [List.mem_cons, List.not_mem_nil, or_false] at hn; omega
  have hl : (BitVec.ofNat 8 (n + 3)).toNat = (List.replicate n (0 : Byte)).length + 3 := by
    rw [List.length_replicate, BitVec.toNat_ofNat]; omega
  refine ⟨longLayout (BitVec.ofNat 8 (n + 3)) 1 2 3 (List.replicate n 0)
    (endAroundSum (List.replicate n 0 ++ [1, 2, 3])) terminator,
    { sourceAddr := 2, destAddr := 1, msgId := 3, payload := some (List.replicate n 0) }, ?_, List.length_replicate⟩
  rw [frameDecode_long hl]
  simp [checkFields, Frame.checksum, checksum]

theorem witness_FrameDecodeOfEncodeIsTheFrame :
    (({ sourceAddr := 1, destAddr := 2, msgId := 3, payload := some (List.replicate 240 0) } : Frame).payload.getD
      []).length ≤ 240 := Nat.le_of_eq List.length_replicate

/-- T52, T58: a short frame and an empty payload, for both values of STRICT. -/
theorem witness_FrameEncodeOfDecodeIsTheBytes :
    ∀ strict : Bool,
      frameDecode [0x10, 0x01, 0x1F, 0x4D, 0x6D, 0x16] strict =
        .ok { sourceAddr := 0x1F, destAddr := 0x01, msgId := 0x4D, payload := none } ∧
      frameDecode [0x68, 0x03, 0x03, 0x68, 0x01, 0x1F, 0x4D, 0x6D, 0x16] strict =
        .ok { sourceAddr := 0x1F, destAddr := 0x01, msgId := 0x4D, payload := some [] } := by decide

/-- A short frame whatever PLEN is, and the longest payload. -/
theorem witness_FencThenFdecRestoresTheFrame :
    ({ State.reset with plen := 255 }.fctl = 0#1) ∧ { State.reset with fctl := 1, plen := 240 }.plen.toNat ≤ 240 := by
  decide

theorem witness_KeystreamIsKeyOneTwiceThenKeyTwo : 7 < 8 ∧ 8 ≤ 8 := by decide

theorem witness_CryptCommandXorsFbufInPlace :
    { State.reset with flen := 261 }.flen.toNat ≤ 261 ∧ 261 < { State.reset with flen := 262 }.flen.toNat := by decide

theorem witness_CryptTwiceRestoresFbuf : { State.reset with flen := 261 }.flen.toNat ≤ 261 := by decide

theorem witness_EsignCommandWritesTheSignature :
    { State.reset with ectl := 1 }.ectl = 1#1 ∧ State.reset.ectl = 0#1 := by decide

theorem witness_SignatureDependsOnTheSum :
    ((0xFFFFFFFF#32).toNat + (1#32).toNat + (0#8).toNat) % 2 ^ 32 = ((0#32).toNat + (0#32).toNat + (0#8).toNat) % 2 ^ 32 := by
  decide

theorem witness_EserCommandWithoutFrame :
    { State.reset with mode := 0x1111 }.mode = 0x1111#16 ∧ { State.reset with mode := 0x1111 }.ectl = 0#1 := by decide

/-- The short frame of the reset state. -/
theorem witness_EserCommandWithFrame :
    { State.reset with ectl := 1 }.mode ≠ 0x1111#16 ∧ { State.reset with ectl := 1 }.ectl = 1#1 ∧
      frameEncode { State.reset with ectl := 1 }.frame = .ok [0x10, 0, 0, 0, 0, 0x16] := by decide

/-- T114, T115, T116. -/
theorem witness_EserCommandErrors :
    ({ State.reset with mode := 0x1111, ectl := 1 }.mode = 0x1111#16 ∧ { State.reset with mode := 0x1111, ectl := 1 }.ectl = 1#1) ∧
    (State.reset.mode ≠ 0x1111#16 ∧ State.reset.ectl = 0#1) ∧
    ({ State.reset with ectl := 1, fctl := 1, plen := 241 }.mode ≠ 0x1111#16 ∧
      { State.reset with ectl := 1, fctl := 1, plen := 241 }.ectl = 1#1 ∧
      { State.reset with ectl := 1, fctl := 1, plen := 241 }.fctl = 1#1 ∧
      240 < { State.reset with ectl := 1, fctl := 1, plen := 241 }.plen.toNat) := by decide

/-- 13 bytes, 277 bytes, and a body of the wrong length (T125). -/
theorem witness_EdesCommandLengthErrors :
    { State.reset with dlen := 13 }.dlen.toNat < 14 ∧ 276 < { State.reset with dlen := 277 }.dlen.toNat ∧
    (14 < (withDbuf (requestDatagram.take 15)).dlen.toNat ∧ (withDbuf (requestDatagram.take 15)).dlen.toNat ≠
      15 + (((withDbuf (requestDatagram.take 15)).bufByte .dbuf 14).toNat + 6)) ∧
    276 < (List.replicate 277 (0#8)).length := by
  refine ⟨by decide, by decide, by decide, ?_⟩
  rw [List.length_replicate]; omega

/-- T121, and the same with a mode that STRICT rejects. -/
theorem witness_EdesCommandOnHeaderOnly :
    (withDbuf handshake).bufBytes .dbuf (withDbuf handshake).dlen.toNat =
      le32 1#32 ++ le16 0x1111#16 ++ le32 0xA5A5F00D#32 ++ le32 0#32 ∧
    ({ withDbuf (bytes [1, 0, 0, 0, 0, 0, 0, 0, 0, 0, 0, 0, 0, 0]) with strict := true }.strict = true ∧
      { withDbuf (bytes [1, 0, 0, 0, 0, 0, 0, 0, 0, 0, 0, 0, 0, 0]) with strict := true }.bufBytes .dbuf 14 =
        le32 1#32 ++ le16 0#16 ++ le32 0#32 ++ le32 0#32) := by decide

/-- T119: a body that decodes, its signature right for one password and wrong for another. -/
theorem witness_EdesCommandOnBody :
    (requestDatagram.drop 15).length = (0x0F#8).toNat + 6 ∧
    (withDbuf requestDatagram).bufBytes .dbuf (withDbuf requestDatagram).dlen.toNat =
      le32 1#32 ++ le16 0#16 ++ le32 0#32 ++ le32 0x013DEDE6#32 ++ [0x0F#8] ++ requestDatagram.drop 15 ∧
    frameDecode (xorKeystream 0#32 1#32 (requestDatagram.drop 15)) false =
      .ok { sourceAddr := 0x1F, destAddr := 0x01, msgId := 0x4D, payload := some request } ∧
    signature 0x12345678#32 1#32 0#32 0xCA#8 = 0x013DEDE6#32 ∧ signature 0x12345679#32 1#32 0#32 0xCA#8 ≠ 0x013DEDE6#32 := by
  decide

/-- A body whose decoding fails, one byte changed (42_envelope.md R160 (a)); a body with a mode that STRICT rejects. -/
theorem witness_EdesCommandOnBody_failures :
    frameDecode (xorKeystream 0#32 1#32 ((requestDatagram.drop 15).set 8 0)) false = .error .checksumMismatch ∧
    ((withDbuf (requestDatagram.set 4 0x11 |>.set 5 0x11)).bufBytes .dbuf
        (withDbuf (requestDatagram.set 4 0x11 |>.set 5 0x11)).dlen.toNat =
      le32 1#32 ++ le16 0x1111#16 ++ le32 0#32 ++ le32 0x013DEDE6#32 ++ [0x0F#8] ++ requestDatagram.drop 15) := by
  decide

/-- The handshake, the request without a password, and the request with its password. -/
theorem witness_DeserializeOfSerializeIsTheEnvelope :
    envSerialize { transactionId := 1, mode := 0x1111, stationKey := 0xA5A5F00D, signature := 0, innerFrame := none } =
      .ok handshake ∧
    envSerialize
      { transactionId := 1, mode := 0, stationKey := 0, signature := 0x013DEDE6,
        innerFrame := some { sourceAddr := 0x1F, destAddr := 0x01, msgId := 0x4D, payload := some request } } =
      .ok requestDatagram ∧
    (0x013DEDE6#32 : Word) = signature 0x12345678#32 1#32 0#32
      (Frame.checksum { sourceAddr := 0x1F, destAddr := 0x01, msgId := 0x4D, payload := some request }) := by decide

theorem witness_SerializeOfDeserializeIsTheDatagram :
    envDeserialize requestDatagram true 0x12345678 false =
      .ok { transactionId := 1, mode := 0, stationKey := 0, signature := 0x013DEDE6,
            innerFrame := some { sourceAddr := 0x1F, destAddr := 0x01, msgId := 0x4D, payload := some request } } ∧
    envSerialize
      { transactionId := 1, mode := 0, stationKey := 0, signature := 0x013DEDE6,
        innerFrame := some { sourceAddr := 0x1F, destAddr := 0x01, msgId := 0x4D, payload := some request } } =
      .ok requestDatagram := by decide

/-- The longest payload. -/
theorem witness_EsignEserEdesRestoresTheEnvelope :
    { State.reset with ectl := 1, fctl := 1, plen := 240 }.ectl = 1#1 ∧
      { State.reset with ectl := 1, fctl := 1, plen := 240 }.mode ≠ 0x1111#16 ∧
      { State.reset with ectl := 1, fctl := 1, plen := 240 }.plen.toNat ≤ 240 := by decide

/-- With a password configured, so that the signature is checked. -/
theorem witness_ModeChangesAreNotDetected :
    envDeserialize requestDatagram true 0x12345678 false =
      .ok { transactionId := 1, mode := 0, stationKey := 0, signature := 0x013DEDE6,
            innerFrame := some { sourceAddr := 0x1F, destAddr := 0x01, msgId := 0x4D, payload := some request } } := by
  decide

end Sys2Proof.Tests
end

section
/-! The wire-format rows given to `exec` (00_scope.md R2; log 7). -/

namespace Sys2Proof.Machine

@[simp] theorem exec_wireShortFrame (d a m c : Byte) (s : State) :
    exec (.wireShortFrame d a m c) s = .refused (.notACommand .shortFrame) := rfl

@[simp] theorem exec_wireLongFrameHead (l d a m : Byte) (s : State) :
    exec (.wireLongFrameHead l d a m) s = .refused (.notACommand .longFrameHead) := rfl

@[simp] theorem exec_wireEnvelopeHeader (t : Word) (o : Half) (k g : Word) (s : State) :
    exec (.wireEnvelopeHeader t o k g) s = .refused (.notACommand .envelopeHeader) := rfl

@[simp] theorem exec_wireEnvelopeBodyHead (n : Byte) (s : State) :
    exec (.wireEnvelopeBodyHead n) s = .refused (.notACommand .envelopeBodyHead) := rfl

/-- Settles O12: the equation of `exec` at each of the four wire-format rows. -/
theorem wireFormatRowsAreNotCommands : Obligations.WireFormatRowsAreNotCommands :=
  ⟨fun s d a m c => exec_wireShortFrame d a m c s,
   fun s l d a m => exec_wireLongFrameHead l d a m s,
   fun s t k g o => exec_wireEnvelopeHeader t o k g s,
   fun s n => exec_wireEnvelopeBodyHead n s⟩

end Sys2Proof.Machine
end

section
/-! The record EDES writes, field by field (42_envelope.md R156): what `Envelope() <- e` sets in the header, and the
registers it leaves alone whatever `e` is. -/

namespace Sys2Proof.Machine

variable (s : State) (e : Envelope)

@[simp] theorem State.setEnvelope_tid : (s.setEnvelope e).tid = e.transactionId := by rw [State.setEnvelope_others]
@[simp] theorem State.setEnvelope_mode : (s.setEnvelope e).mode = e.mode := by rw [State.setEnvelope_others]
@[simp] theorem State.setEnvelope_skey : (s.setEnvelope e).skey = e.stationKey := by rw [State.setEnvelope_others]
@[simp] theorem State.setEnvelope_sig : (s.setEnvelope e).sig = e.signature := by rw [State.setEnvelope_others]
@[simp] theorem State.setEnvelope_ectl : (s.setEnvelope e).ectl = presenceBit e.innerFrame.isSome := by
  rw [State.setEnvelope_others]
@[simp] theorem State.setEnvelope_status : (s.setEnvelope e).status = s.status := by rw [State.setEnvelope_others]
@[simp] theorem State.setEnvelope_ctrl : (s.setEnvelope e).ctrl = s.ctrl := by rw [State.setEnvelope_others]
@[simp] theorem State.setEnvelope_password : (s.setEnvelope e).password = s.password := by rw [State.setEnvelope_others]
@[simp] theorem State.setEnvelope_key : (s.setEnvelope e).key = s.key := by rw [State.setEnvelope_others]
@[simp] theorem State.setEnvelope_data : (s.setEnvelope e).data = s.data := by rw [State.setEnvelope_others]
@[simp] theorem State.setEnvelope_result : (s.setEnvelope e).result = s.result := by rw [State.setEnvelope_others]
@[simp] theorem State.setEnvelope_ck : (s.setEnvelope e).ck = s.ck := by rw [State.setEnvelope_others]
@[simp] theorem State.setEnvelope_k1 : (s.setEnvelope e).k1 = s.k1 := by rw [State.setEnvelope_others]
@[simp] theorem State.setEnvelope_k2 : (s.setEnvelope e).k2 = s.k2 := by rw [State.setEnvelope_others]
@[simp] theorem State.setEnvelope_flen : (s.setEnvelope e).flen = s.flen := by rw [State.setEnvelope_others]
@[simp] theorem State.setEnvelope_dlen : (s.setEnvelope e).dlen = s.dlen := by rw [State.setEnvelope_others]
@[simp] theorem State.setEnvelope_draw : (s.setEnvelope e).draw = s.draw := by rw [State.setEnvelope_others]
@[simp] theorem State.setEnvelope_strict : (s.setEnvelope e).strict = s.strict := by rw [State.setEnvelope_others]
@[simp] theorem State.setEnvelope_pending : (s.setEnvelope e).pending = s.pending := by rw [State.setEnvelope_others]
@[simp] theorem State.setEnvelope_answers : (s.setEnvelope e).answers = s.answers := by rw [State.setEnvelope_others]

/-- The write does not read PASSWORD. -/
theorem State.setEnvelope_with_password (p : Word) :
    State.setEnvelope { s with password := p } e = { s.setEnvelope e with password := p } := by
  obtain ⟨tid, mode, skey, sig, _ | f⟩ := e <;> rfl

end Sys2Proof.Machine
end

section
/-! The state's laws for the host's side: what a register write leaves alone, what reset reads as, and which buffer an
offset is in. -/

namespace Sys2Proof.Machine

@[simp] theorem State.writeReg_mem (s : State) (r : Reg) (v : Word) : (s.writeReg r v).mem = s.mem := by
  cases r <;> rfl

/-- STATUS is read-only to the host (20_memory.md R64). -/
@[simp] theorem State.writeReg_status (s : State) (r : Reg) (v : Word) : (s.writeReg r v).status = s.status := by
  cases r <;> rfl

@[simp] theorem State.readReg_reset (r : Reg) : State.reset.readReg r = 0#32 := by
  cases r <;> rfl

@[simp] theorem State.readReg_resetEvent (s : State) (r : Reg) : s.resetEvent.readReg r = 0#32 :=
  calc s.resetEvent.readReg r = State.reset.readReg r := by cases r <;> rfl
    _ = 0#32 := State.readReg_reset r

/-- After the reset event a byte reads as the next draw's free value (20_memory.md R66). -/
@[simp] theorem State.readByte_resetEvent (s : State) (a : Nat) :
    s.resetEvent.readByte a = Config.unwrittenByte (s.draw + 1) a := rfl

/-- The three buffers do not overlap (20_memory.md R63). -/
theorem Buf.eq_of_holds {b b' : Buf} {a : Nat} (h : b.holds a = true) (h' : b'.holds a = true) : b = b' := by
  rw [Buf.holds_iff] at h h'
  cases b <;> cases b' <;> simp only [Buf.base, Buf.cap, reduceCtorEq] at h h' ⊢ <;> omega

/-- An offset of one buffer is an offset of the three. -/
theorem Buf.inBuffer_of_holds {b : Buf} {a : Nat} (h : b.holds a = true) : inBuffer a = true := by
  cases b <;> simp [inBuffer, h]

/-- A buffer byte is reached by a 1-byte access to its own offset only (20_memory.md R62). -/
theorem target_eq_bufferByte {addr size a : Nat} (h : target addr size = .bufferByte a) :
    a = addr ∧ size = 1 ∧ inBuffer addr = true := by
  simp only [target] at h
  split at h
  · cases h
  split at h
  · repeat' split at h
    all_goals cases h
  · split at h
    · rename_i hin
      split at h
      · cases h
      · rename_i hsize; cases h; exact ⟨rfl, not_not.mp hsize, hin⟩
    · cases h

end Sys2Proof.Machine
end

section
/-! All that a host event and a step can do when they answer a next state, once each. -/

namespace Sys2Proof.Machine

/-- A read that is answered gives the host a register's or a buffer byte's value and changes nothing else
(20_memory.md R61, R62, R69). -/
theorem hostRead_next {s t : State} {addr size : Nat} (h : hostRead s addr size = .next t) :
    (∃ r, target addr size = .register r ∧ t = s.answer (s.readReg r)) ∨
    (size = 1 ∧ inBuffer addr = true ∧ t = s.answer ((s.readByte addr).setWidth 32)) := by
  simp only [hostRead] at h
  split at h
  · rename_i r ht; cases h; exact .inl ⟨r, ht, rfl⟩
  · rename_i a ht
    obtain ⟨rfl, hsize, ha⟩ := target_eq_bufferByte ht
    cases h; exact .inr ⟨hsize, ha, rfl⟩
  · cases h
  · cases h

/-- A CMD write of a row's bits is `exec` of the row. -/
theorem writeCmd_of_decode {size value : Nat} {i : Instr} (h : decodeTableWord (8 * size) value = some i) (s : State) :
    writeCmd s size value = exec i s := by
  simp only [writeCmd, h]

/-- A CMD write that is answered runs a row, or is an IllegalCommand (30_encoding.md R80, R81). -/
theorem writeCmd_next {s t : State} {size value : Nat} (h : writeCmd s size value = .next t) :
    (∃ i, decodeTableWord (8 * size) value = some i ∧ exec i s = .next t) ∨
    (decodeTableWord (8 * size) value = none ∧ size = 4 ∧ t = s.setStatus ErrorKind.illegalCommand.code) := by
  cases hd : decodeTableWord (8 * size) value with
  | some i => exact .inl ⟨i, rfl, by rwa [writeCmd_of_decode hd] at h⟩
  | none =>
    simp only [writeCmd, hd] at h
    split at h
    · rename_i h4; cases h; exact .inr ⟨rfl, h4, rfl⟩
    · cases h

/-- A write that is answered is a CMD write, or stores to one register or to one buffer byte (20_memory.md R62, R64). -/
theorem hostWrite_next {s t : State} {addr size value : Nat} (h : hostWrite s addr size value = .next t) :
    (addr = Reg.cmd.offset ∧ writeCmd s size value = .next t) ∨
    (∃ r, target addr size = .register r ∧ t = s.writeReg r (BitVec.ofNat 32 value)) ∨
    (size = 1 ∧ inBuffer addr = true ∧ t = s.writeByte addr (BitVec.ofNat 8 value)) := by
  simp only [hostWrite] at h
  split at h
  · rename_i hc; exact .inl ⟨hc, h⟩
  · split at h
    · rename_i r ht; cases h; exact .inr (.inl ⟨r, ht, rfl⟩)
    · rename_i a ht
      obtain ⟨rfl, hsize, ha⟩ := target_eq_bufferByte ht
      cases h; exact .inr (.inr ⟨hsize, ha, rfl⟩)
    · cases h
    · cases h

/-- A step that is answered holds an idle block, or performs the first of the accesses pending. -/
theorem step_next {s t : State} (h : step s = .next t) :
    (s.pending = [] ∧ t = s) ∨ ∃ e rest, s.pending = e :: rest ∧ hostEvent (s.setPending rest) e = .next t := by
  cases hp : s.pending with
  | nil => rw [step_of_idle hp] at h; cases h; exact .inl ⟨rfl, rfl⟩
  | cons e rest => exact .inr ⟨e, rest, rfl, by rwa [step_of_pending hp] at h⟩

/-- The step with a CMD write pending. -/
theorem step_of_pending_cmd {s : State} {rest : List HostEvent} {n v : Nat}
    (h : s.pending = .write Reg.cmd.offset n v :: rest) : step s = writeCmd (s.setPending rest) n v := by
  rw [step_of_pending h, hostEvent, hostWrite, if_pos rfl]

end Sys2Proof.Machine
end

section
/-! The invariant (10_state.md R23, R44 to R46): it holds after reset, and each operation, each event and each step keeps
it. -/

namespace Sys2Proof.Machine

/-- The invariant depends on the memory and STATUS alone. -/
theorem State.Inv.congr {s t : State} (h : s.Inv) (hm : t.mem = s.mem) (hs : t.status = s.status) : t.Inv := by
  rwa [State.Inv, hm, hs]

theorem State.Inv.setPending {s : State} (h : s.Inv) (rest : List HostEvent) : (s.setPending rest).Inv :=
  h.congr rfl rfl

theorem State.Inv.answer {s : State} (h : s.Inv) (v : Word) : (s.answer v).Inv :=
  h.congr rfl rfl

theorem State.Inv.writeReg {s : State} (h : s.Inv) (r : Reg) (v : Word) : (s.writeReg r v).Inv :=
  h.congr (State.writeReg_mem s r v) (State.writeReg_status s r v)

theorem State.Inv.setStatus {s : State} (h : s.Inv) {v : BitVec 8} (hv : v.toNat ≤ 7) : (s.setStatus v).Inv :=
  ⟨h.1, hv⟩

theorem State.Inv.writeByte {s : State} (h : s.Inv) {a : Nat} (ha : inBuffer a = true) (v : Byte) :
    (s.writeByte a v).Inv :=
  ⟨Memory.wf_set v h.1 ha, h.2⟩

theorem State.resetEvent_inv (s : State) : s.resetEvent.Inv :=
  ⟨Memory.wf_reset, Nat.zero_le 7⟩

/-- Bytes stored from byte 0 of a buffer, no more than it has, keep the canonical form. -/
theorem Memory.wf_setBytes_buf {m : List Host.Cell} (h : Memory.wf m) (b : Buf) {bs : List Byte}
    (hl : bs.length ≤ b.cap) : Memory.wf (Memory.setBytes m b.base bs) :=
  Memory.wf_setBytes bs h fun _ hi => Buf.inBuffer_base b (Nat.lt_of_lt_of_le hi hl)

/-- A command leaves STATUS at 0 or at an error kind's code (10_state.md R23). -/
theorem exec_status_le {i : Instr} {s t : State} (h : exec i s = .next t) : t.status.toNat ≤ 7 := by
  rcases exec_next h with ⟨k, rfl⟩ | ⟨u, _, rfl⟩
  · exact k.code_range.2
  · exact Nat.zero_le 7

theorem State.Inv.exec {i : Instr} {s t : State} (hs : s.Inv) (h : exec i s = .next t) : t.Inv := by
  refine ⟨?_, exec_status_le h⟩
  obtain ⟨_, hm | ⟨b, bs, hm, hl, _⟩⟩ := exec_mem h <;> rw [hm]
  · exact hs.1
  · exact Memory.wf_setBytes_buf hs.1 b hl

theorem State.Inv.writeCmd {s t : State} {size value : Nat} (hs : s.Inv) (h : writeCmd s size value = .next t) :
    t.Inv := by
  rcases writeCmd_next h with ⟨i, _, hi⟩ | ⟨_, _, rfl⟩
  · exact hs.exec hi
  · exact hs.setStatus (ErrorKind.code_range _).2

theorem State.Inv.hostEvent {s t : State} {e : HostEvent} (hs : s.Inv) (h : hostEvent s e = .next t) : t.Inv := by
  cases e with
  | read addr size =>
    rcases hostRead_next h with ⟨r, _, rfl⟩ | ⟨_, _, rfl⟩
    · exact hs.answer _
    · exact hs.answer _
  | write addr size value =>
    rcases hostWrite_next h with ⟨_, hc⟩ | ⟨r, _, rfl⟩ | ⟨_, ha, rfl⟩
    · exact hs.writeCmd hc
    · exact hs.writeReg r _
    · exact hs.writeByte ha _
  | reset =>
    cases h
    exact s.resetEvent_inv

/-- Settles O13: a step is an idle one or an event, and every event keeps the invariant. -/
theorem stepKeepsTheInvariant : Obligations.StepKeepsTheInvariant := by
  intro s t hs h
  rcases step_next h with ⟨_, rfl⟩ | ⟨e, rest, _, he⟩
  · exact hs
  · exact (hs.setPending rest).hostEvent he

/-- Settles O14. -/
theorem resetMeetsTheInvariant : Obligations.ResetMeetsTheInvariant :=
  ⟨Memory.wf_reset, Nat.zero_le 7⟩

end Sys2Proof.Machine
end

section
/-! What each command may change (10_state.md R24 to R46, 20_memory.md R74). -/

namespace Sys2Proof.Machine

/-- Settles O24: an error changes STATUS alone, and the results of a success are one named update for each command. -/
theorem registersAreWrittenOnlyByTheirCommands : Obligations.RegistersAreWrittenOnlyByTheirCommands := by
  intro i s t h
  rcases exec_next h with ⟨k, rfl⟩ | ⟨u, hu, rfl⟩
  · simp
  · cases i <;> simp only [Results] at hu
    case fenc => obtain ⟨bytes, _, rfl⟩ := hu; simp
    case fdec => obtain ⟨_, f, _, rfl⟩ := hu; simp
    case crypt => obtain ⟨_, rfl⟩ := hu; simp
    case esign => obtain ⟨_, rfl⟩ := hu; simp
    case eser => obtain ⟨bytes, _, rfl⟩ := hu; simp
    case edes => obtain ⟨_, e, _, rfl⟩ := hu; simp
    all_goals subst hu; simp

/-- The commands that write a buffer (10_state.md R44 to R46). -/
def Buf.WrittenBy (b : Buf) (i : Instr) : Prop :=
  match b with
  | .pbuf => i = .fdec ∨ i = .edes
  | .fbuf => i = .fenc ∨ i = .crypt
  | .dbuf => i = .eser

/-- A byte that a command changes is a byte of a buffer the command writes. -/
theorem exec_changes_written_buffer {i : Instr} {s t : State} {a : Nat} (h : exec i s = .next t)
    (hne : t.readByte a ≠ s.readByte a) : ∃ b : Buf, b.holds a = true ∧ b.WrittenBy i := by
  obtain ⟨hd, hm | ⟨b, bs, hm, hl, hw⟩⟩ := exec_mem h
  · exact absurd (by simp only [State.readByte, hm, hd]) hne
  · refine ⟨b, (Buf.holds_iff b a).mpr ?_, ?_⟩
    · by_contra hout
      exact hne (State.readByte_outside hm hd (by omega))
    · rcases hw with ⟨rfl, hi⟩ | ⟨rfl, hi⟩ | ⟨rfl, hi⟩ <;> exact hi

/-- A byte of a buffer that the command does not write reads as before. -/
theorem exec_readByte_of_not_writtenBy {i : Instr} {s t : State} {a : Nat} {b : Buf} (h : exec i s = .next t)
    (hb : b.holds a = true) (hw : ¬ b.WrittenBy i) : t.readByte a = s.readByte a := by
  by_contra hne
  obtain ⟨b', hb', hw'⟩ := exec_changes_written_buffer h hne
  exact hw (Buf.eq_of_holds hb hb' ▸ hw')

/-- Settles O25: the byte is in one buffer at most, and that buffer's writers are the ones named. -/
theorem buffersAreWrittenOnlyByTheirCommands : Obligations.BuffersAreWrittenOnlyByTheirCommands := by
  intro i s t a h
  refine ⟨fun hfdec hedes hb => ?_, fun hfenc hcrypt hb => ?_, fun heser hb => ?_, fun hout => ?_⟩
  · exact exec_readByte_of_not_writtenBy h hb (not_or.mpr ⟨hfdec, hedes⟩)
  · exact exec_readByte_of_not_writtenBy h hb (not_or.mpr ⟨hfenc, hcrypt⟩)
  · exact exec_readByte_of_not_writtenBy h hb heser
  · by_contra hne
    obtain ⟨b, hb, _⟩ := exec_changes_written_buffer h hne
    exact Bool.false_ne_true (hout.symm.trans (Buf.inBuffer_of_holds hb))

end Sys2Proof.Machine
end

section
/-! EDES by cases (42_envelope.md R156), and PASSWORD's part in it. -/

namespace Sys2Proof.Machine

/-- EDES with a DLEN above the buffer. -/
theorem exec_edes_of_cap_lt {s : State} (h : Buf.dbuf.cap < s.dlen.toNat) :
    exec .edes s = .next (s.setStatus ErrorKind.lengthMismatch.code) := by
  simp only [exec, execEdes, gt_iff_lt, h, if_true, commit_error]

/-- EDES with a DLEN inside the buffer ends as EnvDeserialize does. -/
theorem exec_edes_of_le_cap {s : State} (h : s.dlen.toNat ≤ Buf.dbuf.cap) :
    exec .edes s =
      commit s ((envDeserialize s.dbufBytes s.pwen s.password s.strict).map s.setEnvelope) := by
  rw [exec, execEdes, if_neg (Nat.not_lt.mpr h)]
  cases envDeserialize s.dbufBytes s.pwen s.password s.strict <;> rfl

/-- Without a configured password the deserialiser does not read it (42_envelope.md R155, check 6). -/
theorem envDeserialize_without_password (d : List Byte) (p p' : Word) (strict : Bool) :
    envDeserialize d false p strict = envDeserialize d false p' strict := by
  simp only [envDeserialize, checkSignature, Bool.false_and]

/-- Settles O27: both runs deserialise the same bytes to the same answer, and writing it keeps PASSWORD. -/
theorem edesIgnoresPasswordWhenNoneIsConfigured : Obligations.EdesIgnoresPasswordWhenNoneIsConfigured := by
  intro s t p hctrl h
  have hpwen : s.pwen = false := by simp [State.pwen, hctrl]
  rcases Nat.lt_or_ge Buf.dbuf.cap s.dlen.toNat with hlong | hfits
  · rw [exec_edes_of_cap_lt hlong] at h
    rw [exec_edes_of_cap_lt (s := { s with password := p }) hlong]
    cases h; rfl
  · have hsame : envDeserialize (State.dbufBytes { s with password := p }) (State.pwen { s with password := p })
        (State.password { s with password := p }) (State.strict { s with password := p }) =
        envDeserialize s.dbufBytes s.pwen s.password s.strict := by
      rw [hpwen, show State.pwen { s with password := p } = false from hpwen]
      exact envDeserialize_without_password _ _ _ _
    rw [exec_edes_of_le_cap hfits] at h
    rw [exec_edes_of_le_cap (s := { s with password := p }) hfits, hsame]
    cases hd : envDeserialize s.dbufBytes s.pwen s.password s.strict with
    | error k => rw [hd] at h; cases h; rfl
    | ok e =>
      rw [hd] at h; cases h
      rw [Except.map, commit_ok, State.setEnvelope_with_password]; rfl

end Sys2Proof.Machine
end

section
/-! The CMD write and the reset event as steps. -/

namespace Sys2Proof.Machine

/-- Settles O6. -/
theorem stepRunsTheDecodedInstruction : Obligations.StepRunsTheDecodedInstruction := by
  intro s rest n v i hp hd
  calc step s = writeCmd (s.setPending rest) n v := step_of_pending_cmd hp
    _ = exec i (s.setPending rest) := writeCmd_of_decode hd _

/-- The table's rows are whole bytes (log 16). -/
theorem bytes_of_decodeTableWord {nbits w : Nat} {i : Instr} (h : decodeTableWord nbits w = some i) :
    8 * (nbits / 8) = nbits := by
  by_contra hn
  have hw : tableWords nbits w = none := by
    rw [tableWords, if_neg (by omega), if_neg (by omega), if_neg (by omega), if_neg (by omega), if_neg (by omega)]
  simp only [decodeTableWord, hw, reduceCtorEq] at h

/-- Settles O7: the word stands as a write of its own number of bytes to CMD, and taking it off again gives back `s`. -/
theorem fetchWordIsRunByTheNextStep : Obligations.FetchWordIsRunByTheNextStep := by
  intro s nbits w i hd
  have hd' : decodeTableWord (8 * (nbits / 8)) w = some i := by rwa [bytes_of_decodeTableWord hd]
  calc step (s.withFetchWord nbits w)
      = writeCmd ((s.withFetchWord nbits w).setPending s.pending) (nbits / 8) w := step_of_pending_cmd rfl
    _ = exec i s := writeCmd_of_decode hd' _

/-- Settles O15. -/
theorem resetClearsRegistersAndWritesNoByte : Obligations.ResetClearsRegistersAndWritesNoByte :=
  ⟨State.readReg_reset, fun _ => rfl⟩

/-- Settles O16: the step is the reset event on the state with that event done. -/
theorem resetEventClearsTheBlock : Obligations.ResetEventClearsTheBlock := by
  intro s rest hp
  exact ⟨(s.setPending rest).resetEvent, step_of_pending hp, State.readReg_resetEvent _, State.readByte_resetEvent _,
    rfl, rfl, rfl⟩

end Sys2Proof.Machine
end

section
/-! Which accesses reach a register, a byte, or nothing (20_memory.md R60 to R65). -/

namespace Sys2Proof.Machine

/-- The last register of the map is DLEN (20_memory.md R63). -/
theorem Reg.offset_le (r : Reg) : r.offset ≤ 0x054 := by
  cases r <;> decide

theorem Reg.offset_of_regAt {a : Nat} {r : Reg} (h : regAt a = some r) : r.offset = a := by
  simpa using List.find?_some h

/-- Every multiple of 4 from CMD to DLEN is a register's offset (20_memory.md R63). -/
theorem Reg.exists_offset {a : Nat} (ha : a % 4 = 0) (hle : a ≤ 0x054) : ∃ r : Reg, r.offset = a := by
  have hmap : ∀ k < 22, (regAt (4 * k)).isSome = true := by decide
  obtain ⟨r, hr⟩ := Option.isSome_iff_exists.mp (hmap (a / 4) (by omega))
  exact ⟨r, (Reg.offset_of_regAt hr).trans (by omega)⟩

/-- An access the spec gives a meaning is 4 bytes of a register or 1 byte of a buffer (20_memory.md R61, R62). -/
theorem conformingAccess_cases {addr size : Nat} (h : conformingAccess addr size = true) :
    (∃ r : Reg, addr = r.offset ∧ size = 4) ∨ ∃ (b : Buf) (i : Nat), i < b.cap ∧ addr = b.base + i ∧ size = 1 := by
  simp only [conformingAccess, Bool.or_eq_true, Bool.and_eq_true, beq_iff_eq, decide_eq_true_eq] at h
  rcases h with ⟨⟨hsize, hmod⟩, hle⟩ | ⟨hsize, hb⟩
  · obtain ⟨r, hr⟩ := Reg.exists_offset hmod hle
    exact .inl ⟨r, hr.symm, hsize⟩
  · have hholds : ∃ b : Buf, b.holds addr = true := by
      rcases hb with (hb | hb) | hb <;> exact ⟨_, hb⟩
    obtain ⟨b, hb⟩ := hholds
    obtain ⟨hlo, hhi⟩ := (Buf.holds_iff b addr).mp hb
    exact .inr ⟨b, addr - b.base, by omega, by omega, hsize⟩

/-- Every access at or above the window's end is outside, and no other (20_memory.md R60). -/
theorem target_eq_outside_iff (addr size : Nat) : target addr size = .outside ↔ windowSize ≤ addr := by
  constructor
  · intro h
    by_contra hw
    simp only [target, if_neg hw] at h
    repeat' split at h
    all_goals cases h
  · intro hw
    rw [target, if_pos hw]

/-- A register-region access of the wrong size, misaligned, or past the last register (20_memory.md R65). -/
theorem target_of_registerRegion {a n : Nat} (ha : a < registerRegionEnd) (h : n ≠ 4 ∨ a % 4 ≠ 0 ∨ 0x058 ≤ a) :
    ∃ why, target a n = .meaningless why := by
  have hw : ¬ windowSize ≤ a := by simp only [windowSize, registerRegionEnd] at *; omega
  by_cases hsize : n = 4
  · by_cases hmod : a % 4 = 0
    · have hnone : regAt a = none := by
        rw [Option.eq_none_iff_forall_ne_some]
        intro r hr
        have hle := r.offset_le
        have hoff := Reg.offset_of_regAt hr
        omega
      exact ⟨.reservedOffset, by simp [target, hw, ha, hsize, hmod, hnone]⟩
    · exact ⟨.misalignedRegister, by simp [target, hw, ha, hsize, hmod]⟩
  · exact ⟨.registerAccessSize, by simp [target, hw, ha, hsize]⟩

/-- A buffer access of a size other than 1 (20_memory.md R65). -/
theorem target_of_bufferSize {a n : Nat} (ha : inBuffer a = true) (hn : n ≠ 1) :
    target a n = .meaningless .bufferAccessSize := by
  have hrange := (inBuffer_iff a).mp ha
  have hw : ¬ windowSize ≤ a := by simp only [windowSize]; omega
  have hr : ¬ a < registerRegionEnd := by simp only [registerRegionEnd]; omega
  simp [target, hw, hr, ha, hn]

/-- An access above the register region and in no buffer (20_memory.md R63, R65). -/
theorem target_of_reserved {a n : Nat} (hlo : registerRegionEnd ≤ a) (hhi : a < windowSize) (ha : inBuffer a = false) :
    target a n = .meaningless .reservedOffset := by
  simp [target, Nat.not_le.mpr hhi, Nat.not_lt.mpr hlo, ha]

/-- No buffer byte is CMD. -/
theorem Buf.base_add_ne_cmd (b : Buf) (i : Nat) : b.base + i ≠ Reg.cmd.offset := by
  cases b <;> simp only [Buf.base, Reg.offset] <;> omega

theorem Reg.offset_ne_cmd {r : Reg} (h : r ≠ .cmd) : r.offset ≠ Reg.cmd.offset := by
  cases r <;> simp [Reg.offset] at h ⊢

end Sys2Proof.Machine
end

section
/-! Commands and wire rows: which words name them, and how `exec` ends on them (30_encoding.md R80; 60_exceptions.md R200). -/

namespace Sys2Proof.Machine

theorem isCommand_of_decodeCommand {v : Word} {i : Instr} (h : decodeCommand v = .ok i) : i.isCommand = true := by
  simp only [decodeCommand] at h
  repeat' split at h
  all_goals cases h
  all_goals rfl

theorem not_isCommand_of_decodeWire {fmt : WireFormat} {bytes : List Byte} {i : Instr}
    (h : decodeWire fmt bytes = .ok i) : i.isCommand = false := by
  simp only [decodeWire] at h
  repeat' split at h
  all_goals cases h
  all_goals rfl

/-- The 32-bit rows of the table are the commands (log 16). -/
theorem isCommand_of_decodeTableWord {nbits w : Nat} {i : Instr} (h : decodeTableWord nbits w = some i) :
    i.isCommand = true ↔ nbits = 32 := by
  simp only [decodeTableWord] at h
  split at h
  · cases h
  rename_i ws hws
  split at h
  · rename_i j hj
    cases h
    simp only [tableWords] at hws
    split at hws
    · rename_i h32
      cases hws
      exact iff_of_true (isCommand_of_decodeCommand hj) h32
    · rename_i h32
      have hwire : ∃ fmt bytes, ws = .wire fmt bytes := by
        repeat' split at hws
        all_goals cases hws
        all_goals exact ⟨_, _, rfl⟩
      obtain ⟨fmt, bytes, rfl⟩ := hwire
      refine iff_of_false ?_ h32
      rw [not_isCommand_of_decodeWire hj]
      exact Bool.false_ne_true
  · cases h

/-- A command ends with a next state (60_exceptions.md R200). -/
theorem exec_completes {i : Instr} (h : i.isCommand = true) (s : State) : ∃ t, exec i s = .next t := by
  obtain ⟨r, hr⟩ := exec_eq_commit h s
  rw [hr]
  exact commit_completes s r

theorem exec_refused {i : Instr} (h : i.isCommand = false) (s : State) : ∃ why, exec i s = .refused why := by
  cases i <;> simp only [Instr.isCommand, Bool.true_eq_false] at h
  case wireShortFrame => exact ⟨_, exec_wireShortFrame ..⟩
  case wireLongFrameHead => exact ⟨_, exec_wireLongFrameHead ..⟩
  case wireEnvelopeHeader => exact ⟨_, exec_wireEnvelopeHeader ..⟩
  case wireEnvelopeBodyHead => exact ⟨_, exec_wireEnvelopeBodyHead ..⟩

/-- A 4-byte CMD write always ends: a command does, and so does an IllegalCommand (30_encoding.md R81). -/
theorem writeCmd_completes (s : State) (value : Nat) : ∃ t, writeCmd s 4 value = .next t := by
  cases hd : decodeTableWord (8 * 4) value with
  | some i =>
    rw [writeCmd_of_decode hd]
    exact exec_completes ((isCommand_of_decodeTableWord hd).mpr rfl) s
  | none =>
    simp only [writeCmd, hd]
    exact ⟨_, rfl⟩

/-- A CMD write of another size is refused (20_memory.md R65; log 7). -/
theorem writeCmd_refused {size : Nat} (h : size ≠ 4) (s : State) (value : Nat) :
    ∃ why, writeCmd s size value = .refused why := by
  cases hd : decodeTableWord (8 * size) value with
  | some i =>
    rw [writeCmd_of_decode hd]
    refine exec_refused (Bool.eq_false_iff.mpr fun hi => h ?_) s
    have := (isCommand_of_decodeTableWord hd).mp hi
    omega
  | none =>
    simp only [writeCmd, hd, if_neg h]
    exact ⟨_, rfl⟩

theorem writeCmd_ne_fault (s : State) (size value : Nat) (r : Fault) : writeCmd s size value ≠ .fault r := by
  by_cases h : size = 4
  · obtain ⟨t, ht⟩ := writeCmd_completes s value
    simp [h, ht]
  · obtain ⟨why, hw⟩ := writeCmd_refused h s value
    simp [hw]

end Sys2Proof.Machine
end

section
/-! The host's accesses, an equation for each place they can reach. -/

namespace Sys2Proof.Machine

variable (s : State)

theorem hostRead_register (r : Reg) : hostRead s r.offset 4 = .next (s.answer (s.readReg r)) := by
  simp [hostRead]

theorem hostRead_buffer (b : Buf) {i : Nat} (h : i < b.cap) :
    hostRead s (b.base + i) 1 = .next (s.answer ((s.bufByte b i).setWidth 32)) := by
  simp [hostRead, target_buffer b h, State.bufByte]

theorem hostRead_meaningless {a n : Nat} {why : Refusal} (h : target a n = .meaningless why) :
    hostRead s a n = .refused why := by
  simp [hostRead, h]

theorem hostRead_fault_iff (a n : Nat) (r : Fault) : hostRead s a n = .fault r ↔ windowSize ≤ a := by
  rw [← target_eq_outside_iff a n]
  cases ht : target a n <;> simp [hostRead, ht]

theorem hostWrite_register {r : Reg} (h : r ≠ .cmd) (v : Nat) :
    hostWrite s r.offset 4 v = .next (s.writeReg r (BitVec.ofNat 32 v)) := by
  simp [hostWrite, Reg.offset_ne_cmd h]

theorem hostWrite_buffer (b : Buf) {i : Nat} (h : i < b.cap) (v : Nat) :
    hostWrite s (b.base + i) 1 v = .next (s.writeByte (b.base + i) (BitVec.ofNat 8 v)) := by
  rw [hostWrite, if_neg (b.base_add_ne_cmd i), target_buffer b h]

theorem hostWrite_cmd (n v : Nat) : hostWrite s Reg.cmd.offset n v = writeCmd s n v := by
  rw [hostWrite, if_pos rfl]

theorem hostWrite_meaningless {a n : Nat} {why : Refusal} (ha : a ≠ Reg.cmd.offset)
    (h : target a n = .meaningless why) (v : Nat) : hostWrite s a n v = .refused why := by
  simp [hostWrite, ha, h]

theorem hostWrite_fault_iff (a n v : Nat) (r : Fault) : hostWrite s a n v = .fault r ↔ windowSize ≤ a := by
  by_cases ha : a = Reg.cmd.offset
  · subst ha
    rw [hostWrite_cmd]
    exact iff_of_false (writeCmd_ne_fault s n v r) (by decide)
  · rw [← target_eq_outside_iff a n]
    cases ht : target a n <;> simp [hostWrite, ha, ht]

end Sys2Proof.Machine
end

section
/-! Register and buffer accesses as steps (20_memory.md R61 to R64, R69). -/

namespace Sys2Proof.Machine

/-- Settles O20: the statement's table is `readReg` over the 22 registers. -/
theorem registerReadsReturnTheWidenedValue : Obligations.RegisterReadsReturnTheWidenedValue := by
  intro s rest a w hmem hp
  have htable : (a, w) ∈ allRegs.map fun r => (r.offset, s.readReg r) := hmem
  obtain ⟨r, _, hr⟩ := List.mem_map.mp htable
  cases hr
  calc step s = hostRead (s.setPending rest) r.offset 4 := step_of_pending hp
    _ = .next ((s.setPending rest).answer ((s.setPending rest).readReg r)) := hostRead_register _ r
    _ = .next { s with pending := rest, answers := s.readReg r :: s.answers } := by cases r <;> rfl

/-- A write of a register other than CMD, as a step. -/
theorem step_of_pending_write_register {s : State} {rest : List HostEvent} {r : Reg} {v : Nat} (hr : r ≠ .cmd)
    (hp : s.pending = .write r.offset 4 v :: rest) :
    step s = .next ((s.setPending rest).writeReg r (BitVec.ofNat 32 v)) := by
  rw [step_of_pending hp, hostEvent, hostWrite_register _ hr]

/-- A write to a read-only register stores nothing (20_memory.md R64). -/
theorem State.writeReg_of_ro {r : Reg} (h : r.access = .ro) (s : State) (v : Word) : s.writeReg r v = s := by
  cases r <;> simp only [Reg.access, reduceCtorEq] at h <;> rfl

/-- The registers of one access type, in the order of their offsets. -/
def regsWithAccess (acc : Access) : List Reg :=
  allRegs.filter fun r => r.access == acc

theorem access_of_mem_regsWithAccess {acc : Access} {r : Reg} (h : r ∈ regsWithAccess acc) : r.access = acc := by
  simpa using (List.mem_filter.mp h).2

/-- Settles O19: the statement's RW table is `writeReg` over the RW registers, and its RO offsets are those of the RO
registers. -/
theorem registerWritesStoreTheLowBits : Obligations.RegisterWritesStoreTheLowBits := by
  refine ⟨fun r => by cases r <;> rfl, fun s rest v _ => ⟨fun a t hmem hp => ?_, fun a hmem hp => ?_⟩⟩
  · have htable : (a, t) ∈ (regsWithAccess .rw).map fun r =>
        (r.offset, (s.setPending rest).writeReg r (BitVec.ofNat 32 v)) := by
      simpa [regsWithAccess, allRegs, Reg.access, State.writeReg, Reg.offset, State.setPending,
        BitVec.setWidth_ofNat_of_le] using hmem
    obtain ⟨r, hr, heq⟩ := List.mem_map.mp htable
    cases heq
    have hcmd : r ≠ .cmd := by
      rintro rfl; cases access_of_mem_regsWithAccess hr
    exact step_of_pending_write_register hcmd hp
  · have htable : a ∈ (regsWithAccess .ro).map Reg.offset := hmem
    obtain ⟨r, hr, rfl⟩ := List.mem_map.mp htable
    have hro := access_of_mem_regsWithAccess hr
    have hcmd : r ≠ .cmd := by
      rintro rfl; cases hro
    rw [step_of_pending_write_register hcmd hp, State.writeReg_of_ro hro]
    rfl

/-- Settles O21: the statement's table is the three buffers' own bases and sizes; the byte access is `writeByte` or
`bufByte`. -/
theorem bufferBytesAreWrittenAndReadOneByOne : Obligations.BufferBytesAreWrittenAndReadOneByOne := by
  intro b base cap hmem
  have htable : (b, base, cap) ∈ [Buf.pbuf, .fbuf, .dbuf].map fun b => (b, b.base, b.cap) := hmem
  obtain ⟨_, _, heq⟩ := List.mem_map.mp htable
  cases heq
  refine ⟨rfl, rfl, fun s rest i hi => ⟨fun v _ hp => ?_, fun hp => ?_⟩⟩
  · have hstep : step s = .next ((s.setPending rest).writeByte (b.base + i) (BitVec.ofNat 8 v)) := by
      rw [step_of_pending hp, hostEvent, hostWrite_buffer _ b hi]
    refine ⟨_, hstep, rfl, ?_, fun a ha => ?_⟩
    · rw [State.bufByte, State.readByte_writeByte, if_pos rfl]
    · rw [State.readByte_writeByte, if_neg ha]
      rfl
  · rw [step_of_pending hp, hostEvent, hostRead_buffer _ b hi]
    rfl

end Sys2Proof.Machine
end

section
/-! The accesses that stop: refused without a meaning (20_memory.md R65), a fault outside the window (R60; log 8). -/

namespace Sys2Proof.Machine

/-- Settles O22: the access reaches nothing, and a write at CMD is one of the wrong size. -/
theorem accessesWithoutMeaningAreRefused : Obligations.AccessesWithoutMeaningAreRefused := by
  intro s rest a n h
  have htarget : ∃ why, target a n = .meaningless why := by
    rcases h with ⟨ha, hbad⟩ | ⟨hlo, hhi, hn⟩ | ⟨hlo, hhi, hn⟩ | ⟨hlo, hhi⟩ | ⟨hlo, hhi⟩
    · exact target_of_registerRegion ha hbad
    · exact ⟨_, target_of_bufferSize ((inBuffer_iff a).mpr (.inl ⟨hlo, hhi⟩)) hn⟩
    · exact ⟨_, target_of_bufferSize ((inBuffer_iff a).mpr (.inr ⟨hlo, hhi⟩)) hn⟩
    all_goals
      have hout : inBuffer a = false := by rw [Bool.eq_false_iff, Ne, inBuffer_iff]; omega
      exact ⟨_, target_of_reserved (by simp only [registerRegionEnd]; omega) (by simp only [windowSize]; omega) hout⟩
  obtain ⟨why, hwhy⟩ := htarget
  refine ⟨fun hp => ⟨why, ?_⟩, fun v hp => ?_⟩
  · rw [step_of_pending hp, hostEvent, hostRead_meaningless _ hwhy]
  · by_cases ha : a = Reg.cmd.offset
    · have hn : n ≠ 4 := by simp only [Reg.offset] at ha; omega
      subst ha
      rw [step_of_pending_cmd hp]
      exact writeCmd_refused hn _ v
    · exact ⟨why, by rw [step_of_pending hp, hostEvent, hostWrite_meaningless _ ha hwhy]⟩

/-- The events that fault: the accesses outside the window. -/
theorem hostEvent_fault_iff (s : State) (e : HostEvent) (r : Fault) :
    hostEvent s e = .fault r ↔ ∃ a n : Nat, windowSize ≤ a ∧ (e = .read a n ∨ ∃ v : Nat, e = .write a n v) := by
  cases e with
  | read a n => simp [hostEvent, hostRead_fault_iff]
  | write a n v => simp [hostEvent, hostWrite_fault_iff]
  | reset => simp [hostEvent]

/-- Settles O23: an idle step is answered, and any other is the first pending event. -/
theorem onlyAccessesOutsideTheWindowFault : Obligations.OnlyAccessesOutsideTheWindowFault := by
  intro s
  cases hp : s.pending with
  | nil => simp [step_of_idle hp]
  | cons e rest =>
    rw [step_of_pending hp]
    constructor
    · rintro ⟨r, hr⟩
      obtain ⟨a, n, ha, he⟩ := (hostEvent_fault_iff _ e r).mp hr
      exact ⟨a, n, rest, ha, by simpa using he⟩
    · rintro ⟨a, n, rest', ha, he⟩
      have he' : e = .read a n ∨ ∃ v : Nat, e = .write a n v := by
        rcases he with he | ⟨v, he⟩
        · exact .inl (List.cons.inj he).1
        · exact .inr ⟨v, (List.cons.inj he).1⟩
      exact ⟨.outsideWindow, (hostEvent_fault_iff _ e _).mpr ⟨a, n, ha, he'⟩⟩

end Sys2Proof.Machine
end

section
/-! Runs of accesses that have a meaning (20_memory.md R65, 70_reset_and_hazards.md R243). -/

namespace Sys2Proof.Machine

@[simp] theorem State.writeReg_pending (s : State) (r : Reg) (v : Word) : (s.writeReg r v).pending = s.pending := by
  cases r <;> rfl

@[simp] theorem State.writeReg_strict (s : State) (r : Reg) (v : Word) : (s.writeReg r v).strict = s.strict := by
  cases r <;> rfl

/-- An event with a meaning is answered. -/
theorem hostEvent_completes {e : HostEvent} (h : e.conforming = true) (s : State) : ∃ t, hostEvent s e = .next t := by
  cases e with
  | read a n =>
    rcases conformingAccess_cases h with ⟨r, rfl, rfl⟩ | ⟨b, i, hi, rfl, rfl⟩
    · exact ⟨_, hostRead_register s r⟩
    · exact ⟨_, hostRead_buffer s b hi⟩
  | write a n v =>
    rcases conformingAccess_cases h with ⟨r, rfl, rfl⟩ | ⟨b, i, hi, rfl, rfl⟩
    · by_cases hr : r = .cmd
      · subst hr
        rw [hostEvent, hostWrite_cmd]
        exact writeCmd_completes s v
      · exact ⟨_, hostWrite_register s hr v⟩
    · exact ⟨_, hostWrite_buffer s b hi v⟩
  | reset => exact ⟨_, rfl⟩

/-- No event touches the accesses still to come or STRICT (log 3, 4, 12). -/
theorem hostEvent_keeps_pending_strict {s t : State} {e : HostEvent} (h : hostEvent s e = .next t) :
    t.pending = s.pending ∧ t.strict = s.strict := by
  cases e with
  | read a n => rcases hostRead_next h with ⟨r, _, rfl⟩ | ⟨_, _, rfl⟩ <;> exact ⟨rfl, rfl⟩
  | write a n v =>
    rcases hostWrite_next h with ⟨_, hc⟩ | ⟨r, _, rfl⟩ | ⟨_, _, rfl⟩
    · rcases writeCmd_next hc with ⟨i, _, hi⟩ | ⟨_, _, rfl⟩
      · obtain ⟨-, -, -, -, -, -, -, -, -, -, -, -, -, hstrict, hpending, -⟩ :=
          registersAreWrittenOnlyByTheirCommands i s t hi
        exact ⟨hpending, hstrict⟩
      · exact ⟨rfl, rfl⟩
    · exact ⟨s.writeReg_pending r _, s.writeReg_strict r _⟩
    · exact ⟨rfl, rfl⟩
  | reset =>
    cases h
    exact ⟨rfl, rfl⟩

/-- A run whose first step is answered goes on from there. -/
theorem run_succ_of_step {s t : State} (h : step s = .next t) (k : Nat) :
    Host.Core.run core (k + 1) s = Host.Core.run core k t := by
  have hcore : core.step s = .next t := h
  simp only [Host.Core.run, hcore]

/-- Settles O18, by induction on the accesses pending: each step performs the first and leaves the others. -/
theorem conformingRunReachesItsEnd : Obligations.ConformingRunReachesItsEnd := by
  intro s hsafe
  generalize hp : s.pending = events at hsafe ⊢
  induction events generalizing s with
  | nil => exact ⟨s, rfl, hp, rfl⟩
  | cons e rest ih =>
    obtain ⟨hfirst, hrest⟩ := List.forall_mem_cons.mp hsafe
    obtain ⟨t, ht⟩ := hostEvent_completes hfirst (s.setPending rest)
    obtain ⟨htp, hts⟩ := hostEvent_keeps_pending_strict ht
    obtain ⟨u, hrun, hup, hus⟩ := ih t htp hrest
    refine ⟨u, ?_, hup, hus.trans hts⟩
    rw [List.length_cons, run_succ_of_step ((step_of_pending hp).trans ht)]
    exact hrun

end Sys2Proof.Machine
end

section
/-! Commands as one named update by a value computed from the operands; the value is an error kind where the command
fails. -/

namespace Sys2Proof.Machine

variable (s : State)

theorem exec_transform_eq : exec .transform s = commit s (.ok (s.setResult (transform s.key s.data))) := rfl

theorem exec_cksum_eq : exec .cksum s = commit s (.ok (s.setCk s.frame.checksum)) := rfl

theorem exec_kstream_eq : exec .kstream s = commit s (.ok (s.setKeystream (keystreamWords s.skey s.tid))) := rfl

theorem exec_fenc_eq : exec .fenc s = commit s ((frameEncode s.frame).map s.setFbuf) := by
  rw [exec, execFenc]
  cases frameEncode s.frame <;> rfl

theorem exec_eser_eq : exec .eser s = commit s ((envSerialize s.envelope).map s.setDbuf) := by
  rw [exec, execEser]
  cases envSerialize s.envelope <;> rfl

variable {s}

theorem exec_esign_of_hasf (h : s.hasf = true) :
    exec .esign s = commit s (.ok (s.setSig (signature s.password s.tid s.skey s.frame.checksum))) := by
  rw [exec, execEsign, if_pos h]

theorem exec_esign_of_not_hasf (h : s.hasf = false) : exec .esign s = commit s (.error .protocolError) := by
  rw [exec, execEsign, if_neg (Bool.eq_false_iff.mp h)]

/-- FDEC with an FLEN above the buffer (41_framecodec.md R133). -/
theorem exec_fdec_of_cap_lt (h : Buf.fbuf.cap < s.flen.toNat) : exec .fdec s = commit s (.error .framingError) := by
  rw [exec, execFdec, if_pos h]

/-- FDEC with an FLEN inside the buffer ends as FrameDecode does. -/
theorem exec_fdec_of_le_cap (h : s.flen.toNat ≤ Buf.fbuf.cap) :
    exec .fdec s = commit s ((frameDecode s.fbufBytes s.strict).map s.setFrame) := by
  rw [exec, execFdec, if_neg (Nat.not_lt.mpr h)]
  cases frameDecode s.fbufBytes s.strict <;> rfl

/-- CRYPT with an FLEN above the buffer (42_envelope.md R146). -/
theorem exec_crypt_of_cap_lt (h : Buf.fbuf.cap < s.flen.toNat) : exec .crypt s = commit s (.error .operandRange) := by
  rw [exec, execCrypt, if_pos h]

theorem exec_crypt_of_le_cap (h : s.flen.toNat ≤ Buf.fbuf.cap) :
    exec .crypt s = commit s (.ok (s.storeBuf .fbuf (xorKeystream s.skey s.tid s.fbufBytes))) := by
  rw [exec, execCrypt, if_neg (Nat.not_lt.mpr h)]

end Sys2Proof.Machine
end

section
/-! Two states that differ in one buffer byte at most (20_memory.md R66, R74): every update keeps that, and the operands
are the same when the byte is not below its buffer's length. -/

namespace Sys2Proof.Machine

/-- `u` is `s` but for what the byte at offset `a` reads as. -/
def State.SameButByte (a : Nat) (s u : State) : Prop :=
  ∃ m, u = { s with mem := m } ∧ ∀ a', a' ≠ a → u.readByte a' = s.readByte a'

variable {a : Nat} {s u : State}

theorem State.sameButByte_writeByte (s : State) (a : Nat) (v : Byte) : s.SameButByte a (s.writeByte a v) :=
  ⟨_, rfl, fun a' ha => by rw [State.readByte_writeByte, if_neg ha]⟩

namespace State.SameButByte

/-- An update that writes the same bytes to both, perhaps none, and whose other fields do not depend on the memory. -/
theorem of_setBytes (h : s.SameButByte a u) (f : State → State) (base : Nat) (bs : List Byte)
    (hf : ∀ m, f { s with mem := m } = { f s with mem := Memory.setBytes m base bs }) (hd : (f s).draw = s.draw) :
    (f s).SameButByte a (f u) := by
  obtain ⟨m, rfl, hr⟩ := h
  have hmem : (f s).mem = Memory.setBytes s.mem base bs := congrArg State.mem (hf s.mem)
  have hmem' : (f { s with mem := m }).mem = Memory.setBytes m base bs := congrArg State.mem (hf m)
  have hd' : (f { s with mem := m }).draw = s.draw := (congrArg State.draw (hf m)).trans hd
  refine ⟨_, hf m, fun a' ha => ?_⟩
  rw [State.readByte_of_setBytes hmem hd, State.readByte_of_setBytes (s := { s with mem := m }) hmem' hd', hr a' ha]

theorem setStatus (h : s.SameButByte a u) (v : BitVec 8) : (s.setStatus v).SameButByte a (u.setStatus v) :=
  h.of_setBytes (·.setStatus v) 0 [] (fun _ => rfl) rfl

theorem setResult (h : s.SameButByte a u) (v : Word) : (s.setResult v).SameButByte a (u.setResult v) :=
  h.of_setBytes (·.setResult v) 0 [] (fun _ => rfl) rfl

theorem setCk (h : s.SameButByte a u) (v : Byte) : (s.setCk v).SameButByte a (u.setCk v) :=
  h.of_setBytes (·.setCk v) 0 [] (fun _ => rfl) rfl

theorem setKeystream (h : s.SameButByte a u) (ks : Word × Word) :
    (s.setKeystream ks).SameButByte a (u.setKeystream ks) :=
  h.of_setBytes (·.setKeystream ks) 0 [] (fun _ => rfl) rfl

theorem setSig (h : s.SameButByte a u) (v : Word) : (s.setSig v).SameButByte a (u.setSig v) :=
  h.of_setBytes (·.setSig v) 0 [] (fun _ => rfl) rfl

theorem setHeader (h : s.SameButByte a u) (tid : Word) (mode : Half) (skey sig : Word) (hasf : Bool) :
    (s.setHeader tid mode skey sig hasf).SameButByte a (u.setHeader tid mode skey sig hasf) :=
  h.of_setBytes (·.setHeader tid mode skey sig hasf) 0 [] (fun _ => rfl) rfl

theorem storeBuf (h : s.SameButByte a u) (b : Buf) (bs : List Byte) :
    (s.storeBuf b bs).SameButByte a (u.storeBuf b bs) :=
  h.of_setBytes (·.storeBuf b bs) b.base bs (fun _ => rfl) rfl

theorem setFbuf (h : s.SameButByte a u) (bs : List Byte) : (s.setFbuf bs).SameButByte a (u.setFbuf bs) :=
  h.of_setBytes (·.setFbuf bs) Buf.fbuf.base bs (fun _ => rfl) rfl

theorem setDbuf (h : s.SameButByte a u) (bs : List Byte) : (s.setDbuf bs).SameButByte a (u.setDbuf bs) :=
  h.of_setBytes (·.setDbuf bs) Buf.dbuf.base bs (fun _ => rfl) rfl

theorem setFrame (h : s.SameButByte a u) (f : Frame) : (s.setFrame f).SameButByte a (u.setFrame f) :=
  h.of_setBytes (·.setFrame f) Buf.pbuf.base (f.payload.getD []) (fun _ => rfl) rfl

theorem setEnvelope (h : s.SameButByte a u) (e : Envelope) : (s.setEnvelope e).SameButByte a (u.setEnvelope e) := by
  obtain ⟨tid, mode, skey, sig, _ | f⟩ := e
  · exact h.setHeader tid mode skey sig false
  · exact (h.setHeader tid mode skey sig true).setFrame f

/-- A command's end keeps it, when both commands end in the same error or in results that keep it. -/
theorem commit (h : s.SameButByte a u) {α : Type} (r : Except ErrorKind α) {f g : α → State}
    (hfg : ∀ x, (f x).SameButByte a (g x)) {t : State} (ht : Machine.commit s (r.map f) = .next t) :
    ∃ w, Machine.commit u (r.map g) = .next w ∧ t.SameButByte a w := by
  cases r with
  | error k =>
    cases ht
    exact ⟨_, rfl, h.setStatus k.code⟩
  | ok x =>
    cases ht
    exact ⟨_, rfl, (hfg x).setStatus statusOk⟩

/-- The bytes below a length that fits the buffer, when the byte that differs is not one of them. -/
theorem bufBytes_eq (h : s.SameButByte a u) {b : Buf} {n : Nat} (hn : n ≤ b.cap) (ha : ¬ b.below n a) :
    u.bufBytes b n = s.bufBytes b n := by
  obtain ⟨m, _, hr⟩ := h
  refine State.bufBytes_congr fun i hi => hr _ ?_
  rintro rfl
  exact ha ⟨Nat.le_add_right _ _, by omega⟩

/-- PLEN always fits PBUF, so `Frame()` reads no other byte (10_state.md R33, R44). -/
theorem frame_eq (h : s.SameButByte a u) (ha : ¬ s.belowLength a) : u.frame = s.frame := by
  have hcap : s.plen.toNat ≤ Buf.pbuf.cap := Nat.le_of_lt s.plen.isLt
  have hbytes := h.bufBytes_eq hcap fun hb => ha (.inl hb)
  obtain ⟨m, rfl, _⟩ := h
  exact State.frame_congr rfl rfl rfl rfl rfl fun _ => hbytes

theorem envelope_eq (h : s.SameButByte a u) (ha : ¬ s.belowLength a) : u.envelope = s.envelope := by
  have hframe := h.frame_eq ha
  obtain ⟨m, rfl, _⟩ := h
  rw [State.envelope, hframe]
  rfl

theorem fbufBytes_eq (h : s.SameButByte a u) (ha : ¬ s.belowLength a) (hcap : s.flen.toNat ≤ Buf.fbuf.cap) :
    u.fbufBytes = s.fbufBytes := by
  have hbytes := h.bufBytes_eq hcap fun hb => ha (.inr (.inl hb))
  obtain ⟨m, rfl, _⟩ := h
  exact hbytes

theorem dbufBytes_eq (h : s.SameButByte a u) (ha : ¬ s.belowLength a) (hcap : s.dlen.toNat ≤ Buf.dbuf.cap) :
    u.dbufBytes = s.dbufBytes := by
  have hbytes := h.bufBytes_eq hcap fun hb => ha (.inr (.inr hb))
  obtain ⟨m, rfl, _⟩ := h
  exact hbytes

end State.SameButByte

/-- A command from two such states ends alike: its operands are the same, and its update keeps the difference to that
byte. -/
theorem exec_sameButByte {i : Instr} {t : State} (h : s.SameButByte a u) (ha : ¬ s.belowLength a)
    (ht : exec i s = .next t) : ∃ w, exec i u = .next w ∧ t.SameButByte a w := by
  have hframe := h.frame_eq ha
  have henvelope := h.envelope_eq ha
  have hfbuf := h.fbufBytes_eq ha
  have hdbuf := h.dbufBytes_eq ha
  obtain ⟨m, hu, _⟩ := id h
  subst hu
  cases i with
  | transform =>
    rw [exec_transform_eq] at ht ⊢
    exact h.commit (.ok _) h.setResult ht
  | cksum =>
    rw [exec_cksum_eq] at ht ⊢
    rw [hframe]
    exact h.commit (.ok _) h.setCk ht
  | fenc =>
    rw [exec_fenc_eq] at ht ⊢
    rw [hframe]
    exact h.commit _ h.setFbuf ht
  | fdec =>
    rcases Nat.lt_or_ge Buf.fbuf.cap s.flen.toNat with hlong | hfits
    · rw [exec_fdec_of_cap_lt hlong] at ht
      rw [exec_fdec_of_cap_lt (s := { s with mem := m }) hlong]
      exact h.commit (.error _) h.setFrame ht
    · rw [exec_fdec_of_le_cap hfits] at ht
      rw [exec_fdec_of_le_cap (s := { s with mem := m }) hfits, hfbuf hfits]
      exact h.commit _ h.setFrame ht
  | kstream =>
    rw [exec_kstream_eq] at ht ⊢
    exact h.commit (.ok _) h.setKeystream ht
  | crypt =>
    rcases Nat.lt_or_ge Buf.fbuf.cap s.flen.toNat with hlong | hfits
    · rw [exec_crypt_of_cap_lt hlong] at ht
      rw [exec_crypt_of_cap_lt (s := { s with mem := m }) hlong]
      exact h.commit (.error _) (h.storeBuf .fbuf) ht
    · rw [exec_crypt_of_le_cap hfits] at ht
      rw [exec_crypt_of_le_cap (s := { s with mem := m }) hfits, hfbuf hfits]
      exact h.commit (.ok _) (h.storeBuf .fbuf) ht
  | esign =>
    cases hhasf : s.hasf with
    | true =>
      rw [exec_esign_of_hasf hhasf] at ht
      rw [exec_esign_of_hasf (s := { s with mem := m }) hhasf, hframe]
      exact h.commit (.ok _) h.setSig ht
    | false =>
      rw [exec_esign_of_not_hasf hhasf] at ht
      rw [exec_esign_of_not_hasf (s := { s with mem := m }) hhasf]
      exact h.commit (.error _) h.setSig ht
  | eser =>
    rw [exec_eser_eq] at ht ⊢
    rw [henvelope]
    exact h.commit _ h.setDbuf ht
  | edes =>
    rcases Nat.lt_or_ge Buf.dbuf.cap s.dlen.toNat with hlong | hfits
    · rw [exec_edes_of_cap_lt hlong, ← commit_error] at ht
      rw [exec_edes_of_cap_lt (s := { s with mem := m }) hlong, ← commit_error]
      exact h.commit (.error _) h.setEnvelope ht
    · rw [exec_edes_of_le_cap hfits] at ht
      rw [exec_edes_of_le_cap (s := { s with mem := m }) hfits, hdbuf hfits]
      exact h.commit _ h.setEnvelope ht
  | wireShortFrame _ _ _ _ | wireLongFrameHead _ _ _ _ | wireEnvelopeHeader _ _ _ _ | wireEnvelopeBodyHead _ => cases ht

/-- Settles O26: the write before the command leaves a state the same but for that byte. -/
theorem bytesAboveTheLengthsAreNotRead : Obligations.BytesAboveTheLengthsAreNotRead := by
  intro i s t a v ha ht
  obtain ⟨w, hw, m, rfl, hread⟩ := exec_sameButByte (s.sameButByte_writeByte a v) ha ht
  exact ⟨_, hw, rfl, hread⟩

end Sys2Proof.Machine
end

section
/-! The decoder and the encoder, each the other's inverse (30_encoding.md R80, R84, R85, R89, R90). -/

namespace Sys2Proof

/-- A value names a command exactly when it is the one the encoder writes for it: the whole word is compared. -/
theorem decodeCommand_eq_ok_iff {v : Word} {i : Instr} : decodeCommand v = .ok i ↔ encode i = .command v := by
  constructor
  · intro h
    simp only [decodeCommand] at h
    repeat' split at h
    all_goals cases h
    all_goals subst v; rfl
  · intro h
    cases i <;> cases h <;> rfl

@[simp] theorem decodeWire_shortFrame (dst src msg ck : Byte) :
    decodeWire .shortFrame [shortStart, dst, src, msg, ck, terminator] = .ok (.wireShortFrame dst src msg ck) := by
  simp [decodeWire]

@[simp] theorem decodeWire_longFrameHead (lb dst src msg : Byte) :
    decodeWire .longFrameHead [longStart, lb, lb, longStart, dst, src, msg] = .ok (.wireLongFrameHead lb dst src msg) := by
  simp [decodeWire]

@[simp] theorem decodeWire_envelopeHeader (tid skey sig : Word) (mode : Half) :
    decodeWire .envelopeHeader (le32 tid ++ le16 mode ++ le32 skey ++ le32 sig) =
      .ok (.wireEnvelopeHeader tid mode skey sig) := by
  have hfields : decodeWire .envelopeHeader (le32 tid ++ le16 mode ++ le32 skey ++ le32 sig) =
      .ok (.wireEnvelopeHeader (u32le (le32 tid)) (u16le (le16 mode)) (u32le (le32 skey)) (u32le (le32 sig))) := rfl
  simp only [hfields, u32le_le32, u16le_le16]

/-- Settles O1: a command's value is compared whole, a wire row's fixed bytes are the pattern's, and a little-endian
field reads back as the field. -/
theorem decodeOfEncodeIsTheRow : Obligations.DecodeOfEncodeIsTheRow := by
  intro i
  cases i with
  | transform | cksum | fenc | fdec | kstream | crypt | esign | eser | edes => exact decodeCommand_eq_ok_iff.mpr rfl
  | wireShortFrame dst src msg ck => exact decodeWire_shortFrame dst src msg ck
  | wireLongFrameHead lb dst src msg => exact decodeWire_longFrameHead lb dst src msg
  | wireEnvelopeHeader tid mode skey sig => exact decodeWire_envelopeHeader tid skey sig mode
  | wireEnvelopeBodyHead lm => rfl

/-- Bytes that match a wire row's pattern are the ones the encoder writes for the row. -/
theorem encode_of_decodeWire {fmt : WireFormat} {bytes : List Byte} {i : Instr} (h : decodeWire fmt bytes = .ok i) :
    encode i = .wire fmt bytes := by
  simp only [decodeWire] at h
  split at h
  case h_1 b0 b1 b2 b3 b4 b5 =>
    split at h
    · rename_i hfixed
      obtain ⟨rfl, rfl⟩ := hfixed
      cases h; rfl
    · cases h
  case h_2 b0 b1 b2 b3 b4 b5 b6 =>
    split at h
    · cases h
    rename_i hstart
    obtain ⟨rfl, rfl⟩ := not_not.mp hstart
    split at h
    · cases h
    rename_i hlength
    obtain rfl := not_not.mp hlength
    cases h; rfl
  case h_3 b0 b1 b2 b3 b4 b5 b6 b7 b8 b9 b10 b11 b12 b13 =>
    cases h
    rw [encode, le32_u32le rfl, le16_u16le rfl, le32_u32le rfl, le32_u32le rfl]
    rfl
  case h_4 b0 => cases h; rfl
  case h_5 => cases h

/-- Settles O2. -/
theorem encodeOfDecodeIsTheWords : Obligations.EncodeOfDecodeIsTheWords := by
  intro w i h
  cases w with
  | command v => exact decodeCommand_eq_ok_iff.mp h
  | wire fmt bytes => exact encode_of_decodeWire h

/-- Settles O3: the encoder's column of the table, read row by row. -/
theorem commandValuesAreTheNineOfTheTable : Obligations.CommandValuesAreTheNineOfTheTable := by
  intro v i
  rw [decodeCommand_eq_ok_iff]
  cases i <;> simp [encode, eq_comm]

/-- Settles O4: eight words, read by evaluation. -/
theorem tableWordsDecodeToTheirRows : Obligations.TableWordsDecodeToTheirRows := by
  unfold Obligations.TableWordsDecodeToTheirRows
  decide

/-- A 32-bit row is the command its value names (log 16). -/
theorem decodeTableWord_command (v : Nat) : decodeTableWord 32 v = (decodeCommand (BitVec.ofNat 32 v)).toOption := by
  have hwords : tableWords 32 v = some (.command (BitVec.ofNat 32 v)) := rfl
  simp only [decodeTableWord, hwords, decode]
  cases decodeCommand (BitVec.ofNat 32 v) <;> rfl

end Sys2Proof
end

section
/-! A CMD value that names no command (30_encoding.md R81). -/

namespace Sys2Proof.Machine

/-- A value that names a command is 1 to 9. -/
theorem decodeCommand_range {v : Word} {i : Instr} (h : decodeCommand v = .ok i) : 1 ≤ v.toNat ∧ v.toNat ≤ 9 := by
  have hv := decodeCommand_eq_ok_iff.mp h
  cases i <;> cases hv <;> decide

theorem decodeTableWord_illegal {v : Nat} (hlt : v < 2 ^ 32) (h : v = 0 ∨ 10 ≤ v) : decodeTableWord 32 v = none := by
  rw [decodeTableWord_command]
  cases hd : decodeCommand (BitVec.ofNat 32 v) with
  | error _ => rfl
  | ok i =>
    have hrange := decodeCommand_range hd
    rw [BitVec.toNat_ofNat, Nat.mod_eq_of_lt hlt] at hrange
    omega

/-- A 4-byte CMD write whose bits name no row is an IllegalCommand. -/
theorem writeCmd_of_decode_none {v : Nat} (h : decodeTableWord (8 * 4) v = none) (s : State) :
    writeCmd s 4 v = .next (s.setStatus ErrorKind.illegalCommand.code) := by
  simp only [writeCmd, h]
  rfl

/-- Settles O9. -/
theorem illegalCommandSetsStatusSeven : Obligations.IllegalCommandSetsStatusSeven := by
  intro s rest v hlt hv hp
  calc step s = writeCmd (s.setPending rest) 4 v := step_of_pending_cmd hp
    _ = .next ((s.setPending rest).setStatus ErrorKind.illegalCommand.code) :=
      writeCmd_of_decode_none (decodeTableWord_illegal hlt hv) _

end Sys2Proof.Machine
end

section
/-! What FrameEncode and EnvSerialize emit, as the table's wire rows (30_encoding.md R84, R85, R89, R90). -/

namespace Sys2Proof.Machine

theorem wireBytes_shortFrame (dst src msg ck : Byte) :
    wireBytes (.wireShortFrame dst src msg ck) = shortLayout dst src msg ck terminator := rfl

theorem longLayout_take_head (lb dst src msg : Byte) (p : List Byte) (ck term : Byte) :
    (longLayout lb dst src msg p ck term).take 7 = wireBytes (.wireLongFrameHead lb dst src msg) := rfl

theorem longLayout_payload (lb dst src msg : Byte) (p : List Byte) (ck term : Byte) :
    ((longLayout lb dst src msg p ck term).drop 7).take p.length = p := by
  simp [longLayout]

theorem wireBytes_envelopeHeader (e : Envelope) :
    wireBytes (.wireEnvelopeHeader e.transactionId e.mode e.stationKey e.signature) = e.header := rfl

theorem frameEncode_of_absent {f : Frame} (h : f.payload = none) :
    frameEncode f = .ok (shortLayout f.destAddr f.sourceAddr f.msgId f.checksum terminator) := by
  rcases frameEncode_cases f with ⟨_, he⟩ | ⟨p, hp, _⟩ | ⟨p, hp, _⟩
  · exact he
  · simp [h] at hp
  · simp [h] at hp

theorem eq_longLayout_of_frameEncode {f : Frame} {p b : List Byte} (hp : f.payload = some p)
    (h : frameEncode f = .ok b) :
    b = longLayout (BitVec.ofNat 8 (p.length + 3)) f.destAddr f.sourceAddr f.msgId p f.checksum terminator := by
  rcases frameEncode_cases f with ⟨hn, _⟩ | ⟨p', hp', _, he⟩ | ⟨_, _, _, he⟩
  · simp [hp] at hn
  · cases hp.symm.trans hp'
    cases h.symm.trans he
    rfl
  · cases h.symm.trans he

/-- A frame without payload takes 6 bytes (30_encoding.md R84). -/
theorem frameEncode_length_of_absent {f : Frame} {b : List Byte} (hn : f.payload = none) (h : frameEncode f = .ok b) :
    b.length = 6 := by
  cases h.symm.trans (frameEncode_of_absent hn)
  rfl

/-- A frame with a payload takes 9 bytes more than the payload (30_encoding.md R85). -/
theorem frameEncode_length_of_present {f : Frame} {p b : List Byte} (hp : f.payload = some p)
    (h : frameEncode f = .ok b) : b.length = p.length + 9 := by
  rw [eq_longLayout_of_frameEncode hp h, longLayout_length]

/-- A serialised envelope begins with its header. -/
theorem envSerialize_take_header {e : Envelope} {d : List Byte} (h : envSerialize e = .ok d) : d.take 14 = e.header := by
  rcases envSerialize_ok h with ⟨_, _, rfl⟩ | ⟨_, _, _, _, _, rfl⟩
  · exact List.take_of_length_le (header_length e).le
  · rw [List.append_assoc]
    exact List.take_left' (header_length e)

/-- A serialised envelope with an inner frame is its header, the length marker and the encrypted frame. -/
theorem eq_of_envSerialize_frame {e : Envelope} {f : Frame} {b d : List Byte} (hf : e.innerFrame = some f)
    (hb : frameEncode f = .ok b) (h : envSerialize e = .ok d) :
    d = e.header ++ ([BitVec.ofNat 8 (b.length - 6)] ++ xorKeystream e.stationKey e.transactionId b) := by
  rcases envSerialize_ok h with ⟨_, hn, _⟩ | ⟨_, f', b', hf', hb', rfl⟩
  · simp [hf] at hn
  · cases hf.symm.trans hf'
    cases hb.symm.trans hb'
    exact List.append_assoc ..

/-- Settles O5: each of the four rows is what the codec's layout begins with. -/
theorem encodersEmitTheTableFormats : Obligations.EncodersEmitTheTableFormats := by
  refine ⟨?shortFrame, ?longFrameHead, ?envelopeHeader, ?envelopeBodyHead⟩
  case shortFrame =>
    intro f hf
    rw [wireBytes_shortFrame]
    exact frameEncode_of_absent hf
  case longFrameHead =>
    intro f p b hp hb
    obtain rfl := eq_longLayout_of_frameEncode hp hb
    exact ⟨longLayout_take_head .., longLayout_payload ..⟩
  case envelopeHeader =>
    intro e d hd
    rw [wireBytes_envelopeHeader]
    exact envSerialize_take_header hd
  case envelopeBodyHead =>
    intro e f b d hf hb hd
    have hbody : d.drop 14 = [BitVec.ofNat 8 (b.length - 6)] ++ xorKeystream e.stationKey e.transactionId b := by
      rw [eq_of_envSerialize_frame hf hb hd]
      exact List.drop_left' (header_length e)
    refine ⟨by rw [hbody]; rfl, ?_⟩
    rw [show 15 = 14 + 1 from rfl, ← List.drop_drop, hbody]
    rfl

end Sys2Proof.Machine
end

section
/-! FDEC on the two frame layouts (41_framecodec.md R128 to R131). -/

namespace Sys2Proof.Machine

/-- FDEC on given bytes of FBUF ends as FrameDecode does. -/
theorem exec_fdec_of_fbufBytes {s : State} {b : List Byte} (h : s.fbufBytes = b) (hb : b.length ≤ Buf.fbuf.cap) :
    exec .fdec s = commit s ((frameDecode b s.strict).map s.setFrame) := by
  have hlen : s.flen.toNat = b.length := by rw [← h, State.fbufBytes, State.bufBytes_length]
  rw [exec_fdec_of_le_cap (hlen.trans_le hb), h]

/-- How a decoding ends once the bytes have a frame's layout: the checksum, then the terminator, then the fields
(41_framecodec.md R128, checks 9 and 10; R129). -/
theorem commit_checkFields (s : State) (f : Frame) (ck term : Byte) :
    commit s ((checkFields f ck term).map s.setFrame) = .next
      (if ck ≠ f.checksum then s.setStatus 2#8
       else if term ≠ 0x16#8 then s.setStatus 1#8
       else (s.setFrame f).setStatus 0#8) := by
  have hlast : terminator = 0x16#8 := rfl
  rw [checkFields, hlast]
  by_cases hck : ck ≠ f.checksum
  · simp only [if_pos hck]; rfl
  by_cases hterm : term ≠ 0x16#8
  · simp only [if_neg hck, if_pos hterm]; rfl
  · simp only [if_neg hck, if_neg hterm]; rfl

/-- Settles O36: without a payload `Frame() <- f` clears HASP and PLEN and writes no byte. -/
theorem fdecCommandOnShortFrames : Obligations.FdecCommandOnShortFrames := by
  intro s dst src msg ck term h
  have hb : s.fbufBytes = shortLayout dst src msg ck term := h
  have hfits : (shortLayout dst src msg ck term).length ≤ Buf.fbuf.cap := by
    simp only [shortLayout, List.length_cons, List.length_nil, Buf.cap]
    omega
  rw [exec_fdec_of_fbufBytes hb hfits, frameDecode_short, commit_checkFields]
  rfl

/-- What FDEC's success writes for a frame with payload `p`: the frame registers and `PBUF[0..len(p)-1]`. -/
theorem setFrame_present_effect {s t : State} {src dst msg : Byte} {p : List Byte}
    (ht : t = (s.setFrame ⟨src, dst, msg, some p⟩).setStatus 0#8) :
    t = { s with src := src, dst := dst, msgid := msg, fctl := 1#1, plen := BitVec.ofNat 8 p.length,
                 status := 0#8, mem := t.mem } ∧
      t.bufBytes .pbuf p.length = p ∧
      ∀ a, ¬(Buf.pbuf.base ≤ a ∧ a < Buf.pbuf.base + p.length) → t.readByte a = s.readByte a := by
  have hmem : t.mem = Memory.setBytes s.mem Buf.pbuf.base p := by rw [ht]; rfl
  have hdraw : t.draw = s.draw := by rw [ht]; rfl
  exact ⟨by rw [ht]; rfl, State.bufBytes_of_setBytes hmem hdraw, fun _ ha => State.readByte_outside hmem hdraw ha⟩

/-- Settles O37: the STRICT bound comes first, then the last two checks, in FrameDecode's order. -/
theorem fdecCommandOnLongFrames : Obligations.FdecCommandOnLongFrames := by
  intro s lb dst src msg ck term p hlb h
  have hb : s.fbufBytes = longLayout lb dst src msg p ck term := h
  have hfits : (longLayout lb dst src msg p ck term).length ≤ Buf.fbuf.cap := by
    have := lb.isLt
    simp only [longLayout_length, Buf.cap]
    omega
  have hsum : Frame.checksum ⟨src, dst, msg, some p⟩ = endAroundSum (p ++ [dst, src, msg]) := rfl
  rw [exec_fdec_of_fbufBytes hb hfits, frameDecode_long hlb]
  by_cases hstrict : s.strict = true ∧ 240 < p.length
  · rw [if_pos (by simpa using hstrict)]
    refine ⟨_, rfl, ?_⟩
    rw [if_pos hstrict]
    rfl
  · rw [if_neg (by simpa using hstrict), commit_checkFields, hsum]
    refine ⟨_, rfl, ?_⟩
    rw [if_neg hstrict]
    by_cases hck : ck ≠ endAroundSum (p ++ [dst, src, msg])
    · simp only [if_pos hck]; rfl
    by_cases hterm : term ≠ 0x16#8
    · simp only [if_neg hck, if_pos hterm]; rfl
    simp only [if_neg hck, if_neg hterm]
    exact setFrame_present_effect rfl

end Sys2Proof.Machine
end

section
/-! ESER's success and EDES on a header-only datagram (42_envelope.md R152 to R157). -/

namespace Sys2Proof.Machine

/-- ESER on an envelope that serialises: DLEN, the bytes of DBUF, STATUS 0, and nothing else (42_envelope.md R153). -/
theorem exec_eser_of_envSerialize {s : State} {bytes : List Byte} (h : envSerialize s.envelope = .ok bytes) :
    ∃ t, exec .eser s = .next t ∧
      t = { s with dlen := BitVec.ofNat 16 bytes.length, status := 0#8, mem := t.mem } ∧
      t.bufBytes .dbuf bytes.length = bytes ∧
      ∀ a, ¬(Buf.dbuf.base ≤ a ∧ a < Buf.dbuf.base + bytes.length) → t.readByte a = s.readByte a := by
  have hexec : exec .eser s = .next ((s.setDbuf bytes).setStatus statusOk) := by
    rw [exec_eser_eq, h]
    rfl
  have hmem : ((s.setDbuf bytes).setStatus statusOk).mem = Memory.setBytes s.mem Buf.dbuf.base bytes := rfl
  exact ⟨_, hexec, rfl, State.bufBytes_of_setBytes hmem rfl, fun _ ha => State.readByte_outside hmem rfl ha⟩

theorem envSerialize_of_absent {e : Envelope} (hm : e.mode = invalidStationKey) (hf : e.innerFrame = none) :
    envSerialize e = .ok e.header := by
  simp only [envSerialize, if_pos hm, hf]

theorem envSerialize_of_present {e : Envelope} {f : Frame} {plain : List Byte} (hm : e.mode ≠ invalidStationKey)
    (hf : e.innerFrame = some f) (hp : frameEncode f = .ok plain) :
    envSerialize e = .ok (e.header ++ [BitVec.ofNat 8 (plain.length - 6)] ++
      xorKeystream e.stationKey e.transactionId plain) := by
  simp only [envSerialize, if_neg hm, hf, hp, xorKeystream, xorFrom_length]

/-- The header's bytes, the mode those of 0x1111 (30_encoding.md R89). -/
theorem header_of_invalidStationKey {e : Envelope} (hm : e.mode = invalidStationKey) :
    e.header = le32 e.transactionId ++ [0x11#8, 0x11#8] ++ le32 e.stationKey ++ le32 e.signature := by
  rw [Envelope.header, hm]
  rfl

/-- Settles O51. -/
theorem eserCommandWithoutFrame : Obligations.EserCommandWithoutFrame := by
  intro s hm hf
  have hs : envSerialize s.envelope = .ok s.envelope.header :=
    envSerialize_of_absent hm (by rw [State.envelope_absent hf])
  obtain ⟨t, hexec, ht, hbytes, hframe⟩ := exec_eser_of_envSerialize hs
  rw [header_length] at ht hbytes hframe
  refine ⟨t, hexec, ht, ?_, hframe⟩
  rw [hbytes, header_of_invalidStationKey hm]
  simp only [le32_eq]
  rfl

/-- Settles O52. -/
theorem eserCommandWithFrame : Obligations.EserCommandWithFrame := by
  intro s plain hm hf hp
  refine ⟨fun hfctl => ?_, fun hfctl => ?_, ?_⟩
  · exact frameEncode_length_of_absent (by rw [State.frame_absent hfctl]) hp
  · have hlen := frameEncode_length_of_present (by rw [State.frame_present hfctl]) hp
    rwa [State.bufBytes_length] at hlen
  · have hs := envSerialize_of_present (e := s.envelope) hm (by rw [State.envelope_present hf]) hp
    obtain ⟨t, hexec, ht, hbytes, hframe⟩ := exec_eser_of_envSerialize hs
    have hn : (s.envelope.header ++ [BitVec.ofNat 8 (plain.length - 6)] ++
        xorKeystream s.envelope.stationKey s.envelope.transactionId plain).length = 15 + plain.length := by
      simp only [xorKeystream, List.length_append, header_length, xorFrom_length, List.length_singleton]
    rw [hn] at ht hbytes hframe
    exact ⟨t, hexec, ht, hbytes, hframe⟩

/-- EDES on given bytes of DBUF ends as EnvDeserialize does. -/
theorem exec_edes_of_dbufBytes {s : State} {d : List Byte} (h : s.dbufBytes = d) (hd : d.length ≤ Buf.dbuf.cap) :
    exec .edes s = commit s ((envDeserialize d s.pwen s.password s.strict).map s.setEnvelope) := by
  have hlen : s.dlen.toNat = d.length := by rw [← h, State.dbufBytes, State.bufBytes_length]
  rw [exec_edes_of_le_cap (hlen.trans_le hd), h]

/-- Settles O55: with no inner frame `Envelope() <- e` writes the header fields and HASF alone. -/
theorem edesCommandOnHeaderOnly : Obligations.EdesCommandOnHeaderOnly := by
  intro s tid skey sig mode h
  have hfits : (le32 tid ++ le16 mode ++ le32 skey ++ le32 sig).length ≤ Buf.dbuf.cap := by
    simp [Buf.cap]
  rw [exec_edes_of_dbufBytes h hfits, envDeserialize_header]
  split <;> rfl

end Sys2Proof.Machine
end

section
/-! The block transform (40_blockcipher.md R110 to R114): the command's result, one reduction at the end in place of one at
each operation, and the polynomial the four rounds compute. -/

namespace Sys2Proof.Machine

/-- Settles O28: the rounds are those of `transform` written out. -/
theorem transformCommandWritesResult : Obligations.TransformCommandWritesResult := by
  intro s
  rw [exec_transform_eq, commit_ok]
  rfl

/-- A product reduced modulo 2^32 is that of the unreduced factors. -/
theorem word_mul_ofNat (k : Word) (n : Nat) : k * BitVec.ofNat 32 n = BitVec.ofNat 32 (k.toNat * n) := by
  rw [BitVec.ofNat_mul, BitVec.ofNat_toNat, BitVec.setWidth_eq]

/-- Reduction modulo 2^32 commutes with a round (40_blockcipher.md R112). -/
theorem cipherRound_ofNat (k : Word) (a b : Nat) :
    cipherRound k (BitVec.ofNat 32 a, BitVec.ofNat 32 b) =
      (BitVec.ofNat 32 (2 * a + 13), BitVec.ofNat 32 (k.toNat * (2 * a + 13 + b))) := by
  rw [← word_mul_ofNat]
  simp only [cipherRound, BitVec.ofNat_add, BitVec.ofNat_mul]

theorem workingCopy_eq_ofNat (data : Word) :
    workingCopy data = BitVec.ofNat 32 (if data.toNat = 0 then 1 else data.toNat) := by
  have hzero : data = 0#32 ↔ data.toNat = 0 := BitVec.toNat_eq
  simp only [workingCopy, hzero]
  split
  · rfl
  · rw [BitVec.ofNat_toNat, BitVec.setWidth_eq]

/-- Settles O29: the starting pair, each round and the last sum are reductions of their values over the naturals. -/
theorem transformMayReduceOnce : Obligations.TransformMayReduceOnce := by
  intro key data d b0 a1 b1 a2 b2 a3 b3 a4 b4
  have hrounds : cipherRounds key 4 (workingCopy data, key * workingCopy data) =
      (BitVec.ofNat 32 a4, BitVec.ofNat 32 b4) := by
    rw [workingCopy_eq_ofNat, word_mul_ofNat]
    simp only [cipherRounds, cipherRound_ofNat]
    rfl
  have hsum : transform key data = BitVec.ofNat 32 (a4 + data.toNat + b4) := by
    rw [transform, hrounds]
    simp only [BitVec.ofNat_add, BitVec.ofNat_toNat, BitVec.setWidth_eq]
  rw [hsum, BitVec.toNat_ofNat]

/-- The four rounds as a polynomial in the key and the working copy (40_blockcipher.md R114): with the rounds written out,
each component is an identity of the ring of 32-bit words. -/
theorem cipherRounds_four (k d : Word) :
    cipherRounds k 4 (d, k * d) =
      (16#32 * d + 195#32,
        k * (16#32 * d + 195#32) + k * k * (8#32 * d + 91#32) + k * k * k * (4#32 * d + 39#32) +
          k * k * k * k * (2#32 * d + 13#32) + k * k * k * k * k * d) := by
  simp only [cipherRounds, cipherRound]
  refine Prod.ext ?_ ?_
  · show 2#32 * (2#32 * (2#32 * (2#32 * d + 13#32) + 13#32) + 13#32) + 13#32 = 16#32 * d + 195#32
    grind
  · grind

theorem workingCopy_of_ne_zero {data : Word} (h : data ≠ 0#32) : workingCopy data = data := if_neg h

/-- The working copies of 0 and 1 are the same, so the results differ in the last addend alone (40_blockcipher.md R113). -/
theorem transform_zero_data (k : Word) : transform k 0#32 = transform k 1#32 - 1#32 := by
  have hcopy : workingCopy 0#32 = workingCopy 1#32 := rfl
  rw [transform, transform, hcopy]
  grind

theorem transform_of_ne_zero (k data : Word) (h : data ≠ 0#32) :
    transform k data = (16#32 * data + 195#32) + data +
      (k * (16#32 * data + 195#32) + k * k * (8#32 * data + 91#32) + k * k * k * (4#32 * data + 39#32) +
        k * k * k * k * (2#32 * data + 13#32) + k * k * k * k * k * data) := by
  rw [transform, workingCopy_of_ne_zero h, cipherRounds_four]

/-- Settles O30: the forms at the keys 0 and 1 are the polynomial's values there. -/
theorem transformClosedForms : Obligations.TransformClosedForms := by
  refine ⟨transform_zero_data, transform_of_ne_zero, fun data h => ⟨?_, ?_⟩⟩
  · rw [transform_of_ne_zero 0#32 data h]
    grind
  · rw [transform_of_ne_zero 1#32 data h]
    grind

end Sys2Proof.Machine
end

section
/-! The frame codec's round trips (41_framecodec.md R131, R132): FrameEncode and FrameDecode undo each other on encodable
frames, and FENC followed by FDEC gives the frame back. -/

namespace Sys2Proof.Machine

/-- A frame's own checksum and terminator pass the last two checks (41_framecodec.md R128, checks 9 and 10). -/
@[simp] theorem checkFields_self (f : Frame) : checkFields f f.checksum terminator = .ok f := by
  simp [checkFields]

/-- FrameDecode on the short layout of a frame's own fields. -/
theorem frameDecode_short_self {f : Frame} (hp : f.payload = none) (strict : Bool) :
    frameDecode (shortLayout f.destAddr f.sourceAddr f.msgId f.checksum terminator) strict = .ok f := by
  rw [frameDecode_short, ← hp, checkFields_self]

/-- FrameDecode on the long layout of a frame's own fields: only the STRICT bound is left to fail (41_framecodec.md R131). -/
theorem frameDecode_long_self {f : Frame} {lb : Byte} {p : List Byte} (hp : f.payload = some p)
    (hlb : lb.toNat = p.length + 3) (strict : Bool) :
    frameDecode (longLayout lb f.destAddr f.sourceAddr f.msgId p f.checksum terminator) strict =
      if strict && decide (p.length > maxPayload) then .error .framingError else .ok f := by
  rw [frameDecode_long hlb, ← hp, checkFields_self]

/-- The length byte of an encodable payload does not wrap (30_encoding.md R85). -/
theorem lengthByte_toNat {n : Nat} (h : n ≤ maxPayload) : (BitVec.ofNat 8 (n + 3)).toNat = n + 3 := by
  rw [BitVec.toNat_ofNat]
  exact Nat.mod_eq_of_lt (Nat.lt_of_le_of_lt (Nat.add_le_add_right h 3) (by decide))

/-- FrameDecode on what FrameEncode answers (41_framecodec.md R132 (a)): STRICT's bound is the encoder's own. -/
theorem frameDecode_of_frameEncode {f : Frame} {b : List Byte} (h : frameEncode f = .ok b) (strict : Bool) :
    frameDecode b strict = .ok f := by
  rcases frameEncode_cases f with ⟨hp, he⟩ | ⟨p, hp, hl, he⟩ | ⟨_, _, _, he⟩
  · cases h.symm.trans he
    exact frameDecode_short_self hp strict
  · cases h.symm.trans he
    rw [frameDecode_long_self hp (lengthByte_toNat hl), if_neg (by simp [hl])]
  · cases h.symm.trans he

/-- FrameEncode fails on the frames that are not encodable only (41_framecodec.md R123). -/
theorem frameEncode_of_encodable {f : Frame} (h : (f.payload.getD []).length ≤ maxPayload) :
    ∃ b, frameEncode f = .ok b := by
  rcases frameEncode_cases f with ⟨_, he⟩ | ⟨_, _, _, he⟩ | ⟨p, hp, hl, _⟩
  · exact ⟨_, he⟩
  · exact ⟨_, he⟩
  · rw [hp, Option.getD_some] at h
    omega

/-- FrameEncode answers OperandRange for a payload over the limit (41_framecodec.md R123, R124). -/
theorem frameEncode_of_not_encodable {f : Frame} {p : List Byte} (hp : f.payload = some p) (hl : maxPayload < p.length) :
    frameEncode f = .error .operandRange := by
  rcases frameEncode_cases f with ⟨hn, _⟩ | ⟨q, hq, hle, _⟩ | ⟨_, _, _, he⟩
  · simp [hp] at hn
  · cases hp.symm.trans hq
    omega
  · exact he

/-- Settles O41: an encodable frame encodes, and what it encodes to decodes to it. -/
theorem frameDecodeOfEncodeIsTheFrame : Obligations.FrameDecodeOfEncodeIsTheFrame := by
  intro f strict hl
  obtain ⟨b, hb⟩ := frameEncode_of_encodable hl
  exact ⟨b, hb, frameDecode_of_frameEncode hb strict⟩

/-- FENC on a frame that encodes: FLEN, the bytes of FBUF, STATUS 0, and nothing else (41_framecodec.md R125). -/
theorem exec_fenc_of_frameEncode {s : State} {bytes : List Byte} (h : frameEncode s.frame = .ok bytes) :
    ∃ t, exec .fenc s = .next t ∧
      t = { s with flen := BitVec.ofNat 16 bytes.length, status := 0#8, mem := t.mem } ∧
      t.bufBytes .fbuf bytes.length = bytes ∧
      ∀ a, ¬(Buf.fbuf.base ≤ a ∧ a < Buf.fbuf.base + bytes.length) → t.readByte a = s.readByte a := by
  have hexec : exec .fenc s = .next ((s.setFbuf bytes).setStatus statusOk) := by
    rw [exec_fenc_eq, h]
    rfl
  have hmem : ((s.setFbuf bytes).setStatus statusOk).mem = Memory.setBytes s.mem Buf.fbuf.base bytes := rfl
  exact ⟨_, hexec, rfl, State.bufBytes_of_setBytes hmem rfl, fun _ ha => State.readByte_outside hmem rfl ha⟩

/-- Writing to a buffer the bytes it holds changes what no byte reads as. -/
theorem State.readByte_of_setBytes_bufBytes {s t : State} {b : Buf} {n : Nat}
    (hm : t.mem = Memory.setBytes s.mem b.base (s.bufBytes b n)) (hd : t.draw = s.draw) (a : Nat) :
    t.readByte a = s.readByte a := by
  rw [State.readByte_of_setBytes hm hd, State.bufBytes_length]
  split
  · rename_i ha
    obtain ⟨i, rfl⟩ := Nat.exists_eq_add_of_le ha.1
    rw [Nat.add_sub_cancel_left, List.getD_eq_getElem?_getD, State.bufBytes_getElem?, if_pos (by omega)]
    rfl
  · rfl

/-- The payload bytes of `Frame()`, none when HASP is clear (10_state.md R49). -/
theorem State.frame_payload_getD (s : State) :
    s.frame.payload.getD [] = if s.fctl = 1#1 then s.bufBytes .pbuf s.plen.toNat else [] := by
  rcases bit_cases s.fctl with h | h
  · simp [State.frame_absent h, h]
  · simp [State.frame_present h, h]

/-- `Frame() <- Frame()` changes what no byte reads as. -/
theorem State.readByte_setFrame_frame (s : State) (a : Nat) : (s.setFrame s.frame).readByte a = s.readByte a := by
  have hmem : (s.setFrame s.frame).mem = Memory.setBytes s.mem Buf.pbuf.base
      (if s.fctl = 1#1 then s.bufBytes .pbuf s.plen.toNat else []) := by
    rw [State.setFrame_mem, State.frame_payload_getD]
  split at hmem
  · exact State.readByte_of_setBytes_bufBytes hmem (State.setFrame_draw ..) a
  · exact State.readByte_outside hmem (State.setFrame_draw ..) (by simp)

/-- The payload of `Frame()` has PLEN bytes at most. -/
theorem State.frame_payload_length_le (s : State) : (s.frame.payload.getD []).length ≤ s.plen.toNat := by
  rw [State.frame_payload_getD]
  split <;> simp

/-- The states FENC encodes (41_framecodec.md R125). -/
theorem State.frame_encodable {s : State} (h : s.fctl = 0#1 ∨ s.plen.toNat ≤ maxPayload) :
    (s.frame.payload.getD []).length ≤ maxPayload := by
  rcases h with h | h
  · simp [State.frame_absent h]
  · exact s.frame_payload_length_le.trans h

/-- After a successful FENC the frame registers and PBUF are as they were, and FBUF up to FLEN holds the encoded frame. -/
theorem exec_fenc_ready_for_fdec {s t : State} {bytes : List Byte} (hb : frameEncode s.frame = .ok bytes)
    (h : exec .fenc s = .next t) :
    t.fbufBytes = bytes ∧ t.frame = s.frame ∧
      ∀ a, Buf.pbuf.holds a = true → t.readByte a = s.readByte a := by
  have hpbuf : ∀ a, Buf.pbuf.holds a = true → t.readByte a = s.readByte a := fun a ha =>
    exec_readByte_of_not_writtenBy h ha (by simp [Buf.WrittenBy])
  obtain ⟨t', h', ht, hbytes, _⟩ := exec_fenc_of_frameEncode hb
  cases h.symm.trans h'
  refine ⟨?_, ?_, hpbuf⟩
  · have hlen : t.flen.toNat = bytes.length := by
      have := frameEncode_length hb
      rw [ht, BitVec.toNat_ofNat]
      omega
    rw [State.fbufBytes, hlen, hbytes]
  · refine State.frame_congr (by rw [ht]) (by rw [ht]) (by rw [ht]) (by rw [ht]) (by rw [ht]) fun _ => ?_
    refine State.bufBytes_congr fun i hi => hpbuf _ ((Buf.holds_iff _ _).mpr ?_)
    have := s.plen.isLt
    simp only [Buf.cap]
    omega

/-- Settles O43: FDEC reads the bytes FENC wrote, decodes them to the frame it finds in the registers, and writes that frame
back over itself. -/
theorem fencThenFdecRestoresTheFrame : Obligations.FencThenFdecRestoresTheFrame := by
  intro s hs
  obtain ⟨bytes, hb⟩ := frameEncode_of_encodable (State.frame_encodable hs)
  obtain ⟨t, hfenc, _⟩ := exec_fenc_of_frameEncode hb
  obtain ⟨hbytes, hframe, hpbuf⟩ := exec_fenc_ready_for_fdec hb hfenc
  have hfits : bytes.length ≤ Buf.fbuf.cap := (frameEncode_length hb).2.trans (by decide)
  have hfdec : exec .fdec t = .next ((t.setFrame t.frame).setStatus statusOk) := by
    rw [exec_fdec_of_fbufBytes hbytes hfits, frameDecode_of_frameEncode hb, hframe]
    rfl
  refine ⟨t, _, hfenc, hfdec, rfl, ?_, fun a ha => ?_⟩
  · have hlen := (State.frame_payload_length_le t).trans (Nat.le_of_lt_succ t.plen.isLt)
    exact (State.frame_setFrame t t.frame hlen).trans hframe
  · exact (State.readByte_setFrame_frame t a).trans (hpbuf a ha)

/-- STRICT adds a bound on the payload to what FrameDecode accepts, and nothing else (41_framecodec.md R131). -/
theorem frameDecode_ok_strict {b : List Byte} {f : Frame} (h : frameDecode b false = .ok f) :
    frameDecode b true = if (f.payload.getD []).length ≤ maxPayload then .ok f else .error .framingError := by
  rcases frameDecode_ok h with ⟨hp, rfl⟩ | ⟨p, lb, hp, hlb, _, rfl⟩
  · rw [frameDecode_short_self hp, hp]
    rfl
  · rw [frameDecode_long_self hp hlb, hp, Option.getD_some]
    by_cases hl : p.length ≤ maxPayload
    · rw [if_pos hl, if_neg (by simp [hl])]
    · rw [if_neg hl, if_pos (by simpa using hl)]

/-- Settles O40: on the two layouts FrameDecode accepts, the bound is all that STRICT can change. -/
theorem strictBoundsTheDecodedPayload : Obligations.StrictBoundsTheDecodedPayload := by
  refine ⟨fun b f => frameDecode_ok_strict, fun b f h => ?_⟩
  rcases frameDecode_ok h with ⟨hp, rfl⟩ | ⟨p, lb, hp, hlb, _, rfl⟩
  · exact frameDecode_short_self hp false
  · exact frameDecode_long_self hp hlb false

/-- The bytes that decode to an encodable frame are the ones it encodes to (41_framecodec.md R132 (b)). -/
theorem frameEncode_of_frameDecode {b : List Byte} {strict : Bool} {f : Frame} (h : frameDecode b strict = .ok f)
    (hl : (f.payload.getD []).length ≤ maxPayload) : frameEncode f = .ok b := by
  obtain ⟨b', hb'⟩ := frameEncode_of_encodable hl
  rcases frameDecode_ok h with ⟨hp, rfl⟩ | ⟨p, lb, hp, hlb, _, rfl⟩
  · exact frameEncode_of_absent hp
  · have hbyte : lb = BitVec.ofNat 8 (p.length + 3) := by rw [← hlb, BitVec.ofNat_toNat, BitVec.setWidth_eq]
    rw [hb', eq_longLayout_of_frameEncode hp hb', ← hbyte]

/-- A frame one byte over the payload limit, which the length byte can still count (41_framecodec.md R132 (c)). -/
def overlongFrame : Frame :=
  { sourceAddr := 0, destAddr := 0, msgId := 0, payload := some (List.replicate 241 0#8) }

theorem frameDecode_overlongFrame :
    frameDecode (longLayout 244#8 0 0 0 (List.replicate 241 0#8) overlongFrame.checksum terminator) false =
      .ok overlongFrame :=
  frameDecode_long_self (f := overlongFrame) rfl (by rw [List.length_replicate]; rfl) false

theorem frameEncode_overlongFrame : frameEncode overlongFrame = .error .operandRange :=
  frameEncode_of_not_encodable (f := overlongFrame) rfl (by rw [List.length_replicate]; decide)

/-- Settles O42: the length byte, like every other byte, is fixed by the frame; 241 bytes of payload witness (c). -/
theorem frameEncodeOfDecodeIsTheBytes : Obligations.FrameEncodeOfDecodeIsTheBytes :=
  ⟨fun _ _ _ => frameEncode_of_frameDecode, _, overlongFrame, frameDecode_overlongFrame, frameEncode_overlongFrame⟩

end Sys2Proof.Machine
end

section
/-! The end-around-carry checksum as a sum modulo 255 (41_framecodec.md R120, R121). -/

namespace Sys2Proof.Machine

/-- What a plain sum folds to: its residue modulo 255, with 255 in place of 0 for a sum that is not 0 (R121 (b)). -/
def foldedSum (n : Nat) : Nat :=
  if n = 0 then 0 else (n - 1) % 255 + 1

/-- The plain sum of a byte sequence. -/
def plainSum (l : List Byte) : Nat :=
  (l.map BitVec.toNat).sum

theorem foldedSum_le (n : Nat) : foldedSum n ≤ 255 := by
  rw [foldedSum]
  split <;> omega

/-- Two sums fold to the same value when they agree modulo 255 and are 0 together. -/
theorem foldedSum_eq_iff (m n : Nat) : foldedSum m = foldedSum n ↔ m % 255 = n % 255 ∧ (m = 0 ↔ n = 0) := by
  simp only [foldedSum]
  split <;> split <;> omega

/-- A sum that one byte can hold is not folded. -/
theorem foldedSum_of_le {n : Nat} (h : n ≤ 255) : foldedSum n = n := by
  rw [foldedSum]
  split <;> omega

/-- One byte into the accumulator is that byte added to the plain sum: the carry is 256 taken off and 1 put back. -/
theorem checksumStep_foldedSum (n : Nat) (x : Byte) : checksumStep (foldedSum n) x = foldedSum (n + x.toNat) := by
  have hx : x.toNat ≤ 255 := Nat.le_of_lt_succ x.isLt
  rcases Nat.eq_zero_or_pos n with rfl | hn
  · rw [foldedSum_of_le (Nat.zero_le _), Nat.zero_add, foldedSum_of_le hx, checksumStep, Nat.zero_add,
      if_neg (Nat.not_lt.mpr hx)]
  · rw [foldedSum, foldedSum, if_neg (by omega), if_neg (by omega), checksumStep]
    split <;> omega

/-- The accumulator holds the folded plain sum of the bytes so far. -/
theorem foldl_checksumStep (l : List Byte) (n : Nat) :
    l.foldl checksumStep (foldedSum n) = foldedSum (n + plainSum l) := by
  induction l generalizing n with
  | nil => rfl
  | cons x l ih =>
    rw [List.foldl_cons, checksumStep_foldedSum, ih, Nat.add_assoc]
    rfl

/-- The checksum is the folded plain sum (41_framecodec.md R121 (a), (b)). -/
theorem endAroundSum_toNat (l : List Byte) : (endAroundSum l).toNat = foldedSum (plainSum l) := by
  have hfold : l.foldl checksumStep 0 = foldedSum (plainSum l) := by
    simpa [foldedSum] using foldl_checksumStep l 0
  rw [endAroundSum, hfold, BitVec.toNat_ofNat]
  exact Nat.mod_eq_of_lt (Nat.lt_succ_of_le (foldedSum_le _))

/-- Settles O31: the checksum's law, with the folded and the plain sum written out. -/
theorem checksumIsTheSumModulo255 : Obligations.ChecksumIsTheSumModulo255 :=
  endAroundSum_toNat

theorem endAroundSum_eq_iff (l l' : List Byte) :
    endAroundSum l = endAroundSum l' ↔
      plainSum l % 255 = plainSum l' % 255 ∧ (plainSum l = 0 ↔ plainSum l' = 0) := by
  rw [BitVec.toNat_eq, endAroundSum_toNat, endAroundSum_toNat, foldedSum_eq_iff]

theorem plainSum_perm {l l' : List Byte} (h : l.Perm l') : plainSum l = plainSum l' :=
  (h.map BitVec.toNat).sum_eq

/-- Settles O32: the plain sum does not depend on the order. -/
theorem checksumIgnoresByteOrder : Obligations.ChecksumIgnoresByteOrder := by
  intro l l' h
  rw [endAroundSum_eq_iff, plainSum_perm h]
  exact ⟨rfl, Iff.rfl⟩

theorem plainSum_eq_zero_iff (l : List Byte) : plainSum l = 0 ↔ ∀ b ∈ l, b = 0#8 := by
  simp [plainSum, List.sum_eq_zero_iff, BitVec.toNat_eq]

/-- A byte inside a sequence counts as if it came first. -/
theorem plainSum_middle (l r : List Byte) (x : Byte) : plainSum (l ++ x :: r) = x.toNat + plainSum (l ++ r) :=
  plainSum_perm List.perm_middle

/-- Two different bytes agree modulo 255 only when they are 00 and FF. -/
theorem byte_mod_255_eq_iff {x y : Byte} (h : x ≠ y) :
    x.toNat % 255 = y.toNat % 255 ↔ (x = 0x00#8 ∧ y = 0xFF#8 ∨ x = 0xFF#8 ∧ y = 0x00#8) := by
  have hx := x.isLt
  have hy := y.isLt
  simp only [ne_eq, BitVec.toNat_eq, BitVec.toNat_ofNat] at h ⊢
  omega

/-- A change of one byte is missed exactly when it is between 00 and FF and some other byte is not zero
(41_framecodec.md R121 (d)). -/
theorem endAroundSum_replace_eq_iff {x y : Byte} (h : x ≠ y) (l r : List Byte) :
    endAroundSum (l ++ x :: r) = endAroundSum (l ++ y :: r) ↔
      (x = 0x00#8 ∧ y = 0xFF#8 ∨ x = 0xFF#8 ∧ y = 0x00#8) ∧ ¬ ∀ b ∈ l ++ r, b = 0#8 := by
  have hne : x.toNat ≠ y.toNat := fun he => h (BitVec.eq_of_toNat_eq he)
  rw [endAroundSum_eq_iff, plainSum_middle, plainSum_middle, ← plainSum_eq_zero_iff, ← byte_mod_255_eq_iff h]
  omega

/-- Settles O33: the two clauses are the two ways in which a change is not missed. -/
theorem checksumCatchesOneByteChanges : Obligations.ChecksumCatchesOneByteChanges := by
  intro l r x y h
  rw [ne_eq, endAroundSum_replace_eq_iff h]
  refine ⟨fun hext => ?_, fun hext heq => hext heq.1⟩
  rw [and_iff_right hext, not_not]

end Sys2Proof.Machine
end

section
/-! CKSUM, FENC and FDEC by their effect on the state (41_framecodec.md R122, R125, R128, R133). -/

namespace Sys2Proof.Machine

/-- Settles O34: the fold runs over the whole payload of `Frame()`; no length is checked. -/
theorem cksumCommandWritesCk : Obligations.CksumCommandWritesCk := by
  intro s input acc
  have hck : s.frame.checksum = BitVec.ofNat 8 acc := by
    rw [Frame.checksum, Machine.checksum, State.frame_payload_getD]
    rfl
  rw [exec_cksum_eq, commit_ok, hck]
  rfl

/-- FENC on a frame that is not encodable (41_framecodec.md R125). -/
theorem exec_fenc_of_not_encodable {s : State} (h : s.fctl = 1#1) (hl : maxPayload < s.plen.toNat) :
    exec .fenc s = .next (s.setStatus 6#8) := by
  have he : frameEncode s.frame = .error .operandRange :=
    frameEncode_of_not_encodable (by rw [State.frame_present h]) (by rwa [State.bufBytes_length])
  rw [exec_fenc_eq, he]
  rfl

/-- Settles O35: FENC's effect on the layout of the frame's own kind, and OperandRange. -/
theorem fencCommandWritesTheFrame : Obligations.FencCommandWritesTheFrame := by
  intro s p
  refine ⟨fun h => ?absent, fun h hl => ?present, exec_fenc_of_not_encodable⟩
  case absent =>
    have hp : s.frame.payload = none := by rw [State.frame_absent h]
    obtain ⟨t, hexec, ht, hbytes, hframe⟩ := exec_fenc_of_frameEncode (frameEncode_of_absent hp)
    refine ⟨t, hexec, ht, hbytes.trans ?_, hframe⟩
    rw [State.frame_absent h]
    rfl
  case present =>
    have hp : s.frame.payload = some p := by rw [State.frame_present h]
    have hplen : p.length = s.plen.toNat := State.bufBytes_length ..
    obtain ⟨b, hb⟩ := frameEncode_of_encodable (State.frame_encodable (.inr hl))
    obtain ⟨t, hexec, ht, hbytes, hframe⟩ := exec_fenc_of_frameEncode hb
    rw [frameEncode_length_of_present hp hb, hplen] at ht hbytes hframe
    refine ⟨t, hexec, ht, hbytes.trans ?_, hframe⟩
    have hlb : BitVec.ofNat 8 (p.length + 3) = s.plen + 3#8 := by
      rw [hplen, BitVec.ofNat_add, BitVec.ofNat_toNat, BitVec.setWidth_eq]
    rw [eq_longLayout_of_frameEncode hp hb, hlb, State.frame_present h]
    rfl

/-- FDEC on bytes that FrameDecode calls a FramingError, whether FLEN is inside the buffer or above it (R129, R133). -/
theorem exec_fdec_of_framingError {s : State} (h : frameDecode s.fbufBytes s.strict = .error .framingError) :
    exec .fdec s = .next (s.setStatus 1#8) := by
  rcases Nat.lt_or_ge Buf.fbuf.cap s.flen.toNat with hcap | hcap
  · rw [exec_fdec_of_cap_lt hcap]
    rfl
  · rw [exec_fdec_of_le_cap hcap, h]
    rfl

/-- Settles O38: on bytes of neither layout FrameDecode answers FramingError. -/
theorem fdecCommandOnOtherBytes : Obligations.FdecCommandOnOtherBytes := by
  intro s hshort hlong
  refine exec_fdec_of_framingError ?_
  rcases frameDecode_cases s.fbufBytes s.strict with hb | hb | he
  · exact absurd hb hshort
  · obtain ⟨lb, dst, src, msg, p, ck, term, hlb, hb⟩ := hb
    exact absurd ⟨lb, dst, src, msg, ck, term, p, hlb, hb⟩ hlong
  · exact he

/-- No layout is longer than FBUF, so a longer byte string is a FramingError (41_framecodec.md R133). -/
theorem frameDecode_of_cap_lt {b : List Byte} (h : Buf.fbuf.cap < b.length) (strict : Bool) :
    frameDecode b strict = .error .framingError := by
  rcases frameDecode_cases b strict with ⟨_, _, _, _, _, rfl⟩ | ⟨lb, _, _, _, p, _, _, hlb, rfl⟩ | he
  · simp [shortLayout, Buf.cap] at h
  · have := lb.isLt
    simp only [longLayout_length, Buf.cap] at h
    omega
  · exact he

/-- Settles O39: FDEC on an FLEN above the buffer ends as FrameDecode does on bytes that many. -/
theorem overlongFramesAreFramingErrors : Obligations.OverlongFramesAreFramingErrors := by
  refine ⟨fun s h => ?_, fun b strict h => frameDecode_of_cap_lt h strict⟩
  have hlen : Buf.fbuf.cap < s.fbufBytes.length := by rwa [State.fbufBytes, State.bufBytes_length]
  exact exec_fdec_of_framingError (frameDecode_of_cap_lt hlen s.strict)

end Sys2Proof.Machine
end

section
/-! The envelope codec's round trips (42_envelope.md R145, R147, R159, R160): Xor undoes itself, and EnvSerialize and
EnvDeserialize undo each other. -/

namespace Sys2Proof.Machine

@[simp] theorem xorKeystream_length (skey tid : Word) (s : List Byte) : (xorKeystream skey tid s).length = s.length :=
  xorFrom_length ..

/-- The same keystream bytes, XORed twice, cancel. -/
theorem xorFrom_xorFrom (ks : Word × Word) (i : Nat) (s : List Byte) : xorFrom ks i (xorFrom ks i s) = s := by
  induction s generalizing i with
  | nil => rfl
  | cons b s ih => rw [xorFrom, xorFrom, ih, BitVec.xor_assoc, BitVec.xor_self, BitVec.xor_zero]

/-- Xor is its own inverse (42_envelope.md R147). -/
@[simp] theorem xorKeystream_xorKeystream (skey tid : Word) (s : List Byte) :
    xorKeystream skey tid (xorKeystream skey tid s) = s :=
  xorFrom_xorFrom ..

theorem xorKeystream_getElem? (skey tid : Word) (s : List Byte) (i : Nat) :
    (xorKeystream skey tid s)[i]? = s[i]?.map (fun b => b ^^^ keystreamByte skey tid i) := by
  rw [xorKeystream, xorFrom_getElem?, Nat.zero_add]
  rfl

/-- EnvDeserialize on an envelope's header alone: STRICT's mode check is all that can fail (42_envelope.md R155,
check 2). -/
theorem envDeserialize_of_absent {e : Envelope} {strict : Bool} (hf : e.innerFrame = none)
    (hm : strict = true → e.mode = invalidStationKey) (pwen : Bool) (password : Word) :
    envDeserialize e.header pwen password strict = .ok e := by
  obtain ⟨tid, mode, skey, sig, inner⟩ := e
  subst hf
  exact (envDeserialize_header ..).trans (if_neg fun h => h.2 (hm h.1))

/-- EnvDeserialize on an envelope's header, a length marker and a frame's encrypted bytes, the mode and the signature as
the checks ask (42_envelope.md R155, checks 3 to 6). -/
theorem envDeserialize_of_present {e : Envelope} {f : Frame} {lm : Byte} {enc : List Byte} {pwen strict : Bool}
    {password : Word} (hf : e.innerFrame = some f) (hm : strict = true → e.mode ≠ invalidStationKey)
    (hl : enc.length = lm.toNat + 6)
    (hd : frameDecode (xorKeystream e.stationKey e.transactionId enc) strict = .ok f)
    (hs : pwen = true → signature password e.transactionId e.stationKey f.checksum = e.signature) :
    envDeserialize (e.header ++ [lm] ++ enc) pwen password strict = .ok e := by
  obtain ⟨tid, mode, skey, sig, inner⟩ := e
  subst hf
  refine (envDeserialize_body tid skey sig mode lm enc pwen strict password hl).trans ?_
  rw [if_neg fun h => hm h.1 h.2, hd]
  exact if_neg fun h => h.2 (hs h.1)

/-- The length marker of an encoded frame does not wrap (30_encoding.md R91). -/
theorem lengthMarker_toNat {f : Frame} {plain : List Byte} (h : frameEncode f = .ok plain) :
    plain.length = (BitVec.ofNat 8 (plain.length - 6)).toNat + 6 := by
  have := frameEncode_length h
  rw [BitVec.toNat_ofNat]
  omega

/-- Settles O57: the header's fields are read back, the XOR cancels, and the frame decodes to itself. -/
theorem deserializeOfSerializeIsTheEnvelope : Obligations.DeserializeOfSerializeIsTheEnvelope := by
  intro e d pwen strict password h hsig
  rcases envSerialize_ok h with ⟨hm, hf, rfl⟩ | ⟨hm, f, plain, hf, hp, rfl⟩
  · exact envDeserialize_of_absent hf (fun _ => hm) pwen password
  · refine envDeserialize_of_present hf (fun _ => hm) ?_ ?_ fun hpwen => ?_
    · rw [xorKeystream_length]
      exact lengthMarker_toNat hp
    · rw [xorKeystream_xorKeystream]
      exact frameDecode_of_frameEncode hp strict
    · rcases hsig with hoff | hnone | ⟨g, hg, hright⟩
      · simp [hpwen] at hoff
      · simp [hf] at hnone
      · cases hf.symm.trans hg
        exact hright.symm

/-- Two neighbouring slices are one. -/
theorem slice_append_slice (d : List Byte) (i m n : Nat) : slice d i m ++ slice d (i + m) n = slice d i (m + n) := by
  simp only [slice, List.take_add, List.drop_drop]

theorem slice_length {d : List Byte} {i n : Nat} (h : i + n ≤ d.length) : (slice d i n).length = n := by
  simp only [slice, List.length_take, List.length_drop]
  omega

/-- The header of the fields read off a datagram is the datagram's own (30_encoding.md R89, R93). -/
theorem header_parseHeader {d : List Byte} (h : headerLength ≤ d.length) (inner : Option Frame) :
    (parseHeader d inner).header = d.take headerLength := by
  have hlen : ∀ {i n}, i + n ≤ headerLength → (slice d i n).length = n := fun hi => slice_length (hi.trans h)
  calc (parseHeader d inner).header
      = slice d 0 4 ++ slice d 4 2 ++ slice d 6 4 ++ slice d 10 4 := by
        simp only [Envelope.header, parseHeader, le32_u32le (hlen (i := 0) (n := 4) (by decide)),
          le16_u16le (hlen (i := 4) (n := 2) (by decide)), le32_u32le (hlen (i := 6) (n := 4) (by decide)),
          le32_u32le (hlen (i := 10) (n := 4) (by decide))]
    _ = slice d 0 headerLength := by
        rw [slice_append_slice d 0 4 2, slice_append_slice d 0 6 4, slice_append_slice d 0 10 4]
    _ = d.take headerLength := rfl

/-- A datagram longer than a header is its header, its length marker and its body. -/
theorem datagram_split {d : List Byte} (h : headerLength < d.length) :
    d = d.take headerLength ++ [byteAt d 14] ++ d.drop 15 := by
  have hb : byteAt d 14 = d[14] := List.getD_eq_getElem _ _ h
  rw [hb, List.append_assoc, List.singleton_append, ← List.drop_eq_getElem_cons h, List.take_append_drop]

/-- The only datagrams that EnvDeserialize answers `e` on: those of `envDeserialize_of_absent` and
`envDeserialize_of_present`. -/
theorem datagram_of_envDeserialize {d : List Byte} {pwen strict : Bool} {password : Word} {e : Envelope}
    (h : envDeserialize d pwen password strict = .ok e) :
    (e.innerFrame = none ∧ d = e.header) ∨
    ∃ f lm enc, e.innerFrame = some f ∧ enc.length = lm.toNat + 6 ∧
      frameDecode (xorKeystream e.stationKey e.transactionId enc) strict = .ok f ∧
      (pwen = true → signature password e.transactionId e.stationKey f.checksum = e.signature) ∧
      d = e.header ++ [lm] ++ enc := by
  rcases envDeserialize_ok h with ⟨hl, rfl, _⟩ | ⟨hl, hlm, _, f, hd, rfl, hs⟩
  · refine .inl ⟨rfl, ?_⟩
    rw [header_parseHeader hl.ge, List.take_of_length_le hl.le]
  · refine .inr ⟨f, byteAt d 14, d.drop 15, rfl, by rw [List.length_drop, hlm], hd, hs, ?_⟩
    rw [header_parseHeader hl.le]
    exact datagram_split hl

/-- The frames FrameEncode accepts (41_framecodec.md R123). -/
theorem encodable_of_frameEncode {f : Frame} {b : List Byte} (h : frameEncode f = .ok b) :
    (f.payload.getD []).length ≤ maxPayload := by
  rcases frameEncode_cases f with ⟨hp, _⟩ | ⟨p, hp, hl, _⟩ | ⟨_, _, _, he⟩
  · simp [hp]
  · rwa [hp]
  · cases h.symm.trans he

/-- Settles O58: a decoded frame that encodes, encodes to the bytes it was decoded from. -/
theorem serializeOfDeserializeIsTheDatagram : Obligations.SerializeOfDeserializeIsTheDatagram := by
  intro d d' pwen strict password e hdes hser
  rcases datagram_of_envDeserialize hdes with ⟨hf, rfl⟩ | ⟨f, lm, enc, hf, hl, hd, _, rfl⟩ <;>
    rcases envSerialize_ok hser with ⟨_, hf', rfl⟩ | ⟨_, f', plain, hf', hp, rfl⟩
  case inl.inl => rfl
  case inl.inr => simp [hf] at hf'
  case inr.inl => simp [hf] at hf'
  case inr.inr =>
    cases hf.symm.trans hf'
    have hplain : xorKeystream e.stationKey e.transactionId enc = plain := by
      have hp' := frameEncode_of_frameDecode hd (encodable_of_frameEncode hp)
      cases hp.symm.trans hp'
      rfl
    have hlm : BitVec.ofNat 8 (enc.length - 6) = lm := by
      rw [hl, Nat.add_sub_cancel, BitVec.ofNat_toNat, BitVec.setWidth_eq]
    rw [← hplain, xorKeystream_xorKeystream, xorKeystream_length, hlm]

/-- Bytes 4 and 5 of a datagram are its mode (30_encoding.md R89). -/
theorem header_set_mode (e : Envelope) (m0 m1 : Byte) (r : List Byte) :
    ((e.header ++ r).set 4 m0).set 5 m1 = { e with mode := u16le [m0, m1] }.header ++ r := by
  simp only [Envelope.header, le32_eq, le16_u16le (s := [m0, m1]) rfl]
  rfl

/-- Settles O60: no check but STRICT's reads the mode. -/
theorem modeChangesAreNotDetected : Obligations.ModeChangesAreNotDetected := by
  intro d pwen password e m0 m1 h
  rcases datagram_of_envDeserialize h with ⟨hf, rfl⟩ | ⟨f, lm, enc, hf, hl, hd, hs, rfl⟩
  · have hset := header_set_mode e m0 m1 []
    rw [List.append_nil, List.append_nil] at hset
    rw [hset]
    exact envDeserialize_of_absent (e := { e with mode := u16le [m0, m1] }) (strict := false) hf nofun pwen password
  · rw [List.append_assoc, header_set_mode, ← List.append_assoc]
    exact envDeserialize_of_present (e := { e with mode := u16le [m0, m1] }) (strict := false) hf nofun hl hd hs

/-- Settles O46. -/
theorem xorIsAnInvolutionByteByByte : Obligations.XorIsAnInvolutionByteByByte := fun skey tid s =>
  ⟨xorKeystream_xorKeystream skey tid s, xorKeystream_length skey tid s, xorKeystream_getElem? skey tid s⟩

end Sys2Proof.Machine
end

section
/-! The keystream and the signature (42_envelope.md R140 to R150): KSTREAM, CRYPT and ESIGN by their effect on the
state. -/

namespace Sys2Proof.Machine

/-- The complement of a transaction id as a difference (42_envelope.md R140). -/
theorem word_complement_eq_sub (w : Word) : ~~~w = 0xFFFFFFFF#32 - w := by
  apply BitVec.eq_of_toNat_eq
  have := w.isLt
  rw [BitVec.toNat_not, BitVec.toNat_sub, BitVec.toNat_ofNat]
  omega

/-- Settles O44. -/
theorem kstreamCommandWritesTheWords : Obligations.KstreamCommandWritesTheWords := by
  intro s
  rw [← word_complement_eq_sub, exec_kstream_eq, commit_ok]
  rfl

/-- Byte `j` of a word in wire order (00_scope.md R10). -/
theorem le32_getElem? (v : Word) {j : Nat} (h : j < 4) : (le32 v)[j]? = some (v.extractLsb' (8 * j) 8) := by
  rw [le32_eq]
  interval_cases j <;> rfl

/-- The keystream's first eight bytes are the first word's (42_envelope.md R141). -/
theorem keystreamByteOf_of_lt {i : Nat} (h : i < 8) (ks : Word × Word) :
    keystreamByteOf ks i = ks.1.extractLsb' (8 * (i % 4)) 8 := by
  rw [keystreamByteOf, if_pos h]

/-- From the ninth byte on the keystream is the second word's (42_envelope.md R141). -/
theorem keystreamByteOf_of_le {i : Nat} (h : 8 ≤ i) (ks : Word × Word) :
    keystreamByteOf ks i = ks.2.extractLsb' (8 * (i % 4)) 8 := by
  rw [keystreamByteOf, if_neg (Nat.not_lt.mpr h)]

/-- Settles O45: the words' bytes by index; the swap is the complement's being its own inverse. -/
theorem keystreamIsKeyOneTwiceThenKeyTwo : Obligations.KeystreamIsKeyOneTwiceThenKeyTwo := by
  intro skey tid i
  have hi : i % 4 < 4 := Nat.mod_lt i (by decide)
  refine ⟨fun h => ?_, fun h => ?_, ?_⟩
  · rw [le32_getElem? _ hi, keystreamByte, keystreamByteOf_of_lt h]
    rfl
  · rw [le32_getElem? _ hi, keystreamByte, keystreamByteOf_of_le h]
    rfl
  · simp only [keystreamWords, BitVec.not_not]

/-- CRYPT with an FLEN inside the buffer: `FBUF[0..FLEN-1]` XORed, STATUS 0, and nothing else (42_envelope.md R146). -/
theorem exec_crypt_effect {s : State} (h : s.flen.toNat ≤ Buf.fbuf.cap) :
    ∃ t, exec .crypt s = .next t ∧ t = { s with status := 0#8, mem := t.mem } ∧
      t.fbufBytes = xorKeystream s.skey s.tid s.fbufBytes ∧
      ∀ a, ¬(Buf.fbuf.base ≤ a ∧ a < Buf.fbuf.base + s.flen.toNat) → t.readByte a = s.readByte a := by
  have hlen : (xorKeystream s.skey s.tid s.fbufBytes).length = s.flen.toNat := by
    rw [xorKeystream_length, State.fbufBytes, State.bufBytes_length]
  have hmem : ((s.storeBuf .fbuf (xorKeystream s.skey s.tid s.fbufBytes)).setStatus statusOk).mem =
      Memory.setBytes s.mem Buf.fbuf.base (xorKeystream s.skey s.tid s.fbufBytes) := rfl
  refine ⟨_, by rw [exec_crypt_of_le_cap h, commit_ok], rfl, ?_, fun a ha => ?_⟩
  · have hbytes := State.bufBytes_of_setBytes hmem rfl
    rwa [hlen] at hbytes
  · exact State.readByte_outside hmem rfl (by rwa [hlen])

/-- Settles O47. -/
theorem cryptCommandXorsFbufInPlace : Obligations.CryptCommandXorsFbufInPlace := by
  intro s
  refine ⟨fun h => ?_, fun h => ?_⟩
  · obtain ⟨t, hexec, ht, hbytes, hframe⟩ := exec_crypt_effect h
    refine ⟨t, hexec, ht, fun i hi => ?_, hframe⟩
    have hflen : t.flen = s.flen := by rw [ht]
    have hbyte : t.fbufBytes[i]? = s.fbufBytes[i]?.map (fun b => b ^^^ keystreamByte s.skey s.tid i) := by
      rw [hbytes, xorKeystream_getElem?]
    simpa only [State.fbufBytes, hflen, State.bufBytes_getElem?, if_pos hi, Option.map_some, Option.some.injEq]
      using hbyte
  · rw [exec_crypt_of_cap_lt h]
    rfl

/-- Two states that read alike below FLEN and outside it read alike. -/
theorem State.readByte_eq_of_fbufBytes_eq {s t : State} (hflen : t.flen = s.flen) (hbytes : t.fbufBytes = s.fbufBytes)
    (hframe : ∀ a, ¬(Buf.fbuf.base ≤ a ∧ a < Buf.fbuf.base + s.flen.toNat) → t.readByte a = s.readByte a)
    (a : Nat) : t.readByte a = s.readByte a := by
  by_cases ha : Buf.fbuf.base ≤ a ∧ a < Buf.fbuf.base + s.flen.toNat
  · obtain ⟨i, rfl⟩ := Nat.exists_eq_add_of_le ha.1
    have hi : i < s.flen.toNat := by omega
    have hbyte : t.fbufBytes[i]? = s.fbufBytes[i]? := by rw [hbytes]
    simpa only [State.fbufBytes, hflen, State.bufBytes_getElem?, if_pos hi, Option.some.injEq, State.bufByte]
      using hbyte
  · exact hframe a ha

/-- Settles O48: the second CRYPT finds the same SKEY, TID and FLEN, and XORs the same keystream again. -/
theorem cryptTwiceRestoresFbuf : Obligations.CryptTwiceRestoresFbuf := by
  intro s h
  obtain ⟨t, htexec, ht, htbytes, htframe⟩ := exec_crypt_effect h
  have hflen : t.flen = s.flen := by rw [ht]
  have hskey : t.skey = s.skey := by rw [ht]
  have htid : t.tid = s.tid := by rw [ht]
  obtain ⟨u, huexec, hu, hubytes, huframe⟩ := exec_crypt_effect (s := t) (hflen ▸ h)
  have hregs : u = { s with status := 0#8, mem := u.mem } := by
    rw [hu, ht]
  refine ⟨t, u, htexec, huexec, hregs, State.readByte_eq_of_fbufBytes_eq (by rw [hregs]) ?_ fun a ha => ?_⟩
  · rw [hubytes, htbytes, hskey, htid, xorKeystream_xorKeystream]
  · rw [huframe a (hflen ▸ ha), htframe a ha]

/-- The checksum of `Frame()`: the payload where HASP is set, then the three header bytes (41_framecodec.md R120). -/
theorem State.frame_checksum (s : State) :
    s.frame.checksum =
      endAroundSum ((if s.fctl = 1#1 then s.bufBytes .pbuf s.plen.toNat else []) ++ [s.dst, s.src, s.msgid]) := by
  rw [Frame.checksum, Machine.checksum, State.frame_payload_getD]
  rfl

theorem State.hasf_of_set {s : State} (h : s.ectl = 1#1) : s.hasf = true := by simp [State.hasf, h]

theorem State.hasf_of_clear {s : State} (h : s.ectl = 0#1) : s.hasf = false := by simp [State.hasf, h]

/-- Settles O49: neither PWEN nor PLEN's bound is looked at. -/
theorem esignCommandWritesTheSignature : Obligations.EsignCommandWritesTheSignature := by
  intro s p ck
  have hck : s.frame.checksum = ck := s.frame_checksum
  clear_value ck -- the two next states agree for any checksum, so no sum is evaluated
  refine ⟨fun h => ?_, fun h => ?_⟩
  · rw [exec_esign_of_hasf (State.hasf_of_set h), commit_ok, hck]
    rfl
  · rw [exec_esign_of_not_hasf (State.hasf_of_clear h), commit_error]
    rfl

/-- The signature is a function of the sum (42_envelope.md R148, R150). -/
theorem signature_eq_ofNat (p t k : Word) (c : Byte) :
    signature p t k c = transform p (BitVec.ofNat 32 ((t.toNat + k.toNat + c.toNat) % 2 ^ 32 + 256)) := by
  have hsum : t + k + 256#32 + c.setWidth 32 = BitVec.ofNat 32 ((t.toNat + k.toNat + c.toNat) % 2 ^ 32 + 256) := by
    apply BitVec.eq_of_toNat_eq
    have := c.isLt
    simp only [BitVec.toNat_add, BitVec.toNat_ofNat, BitVec.toNat_setWidth]
    omega
  rw [signature, hsum]

/-- Settles O50. -/
theorem signatureDependsOnTheSum : Obligations.SignatureDependsOnTheSum := by
  intro p t t' k k' c c' h
  rw [signature_eq_ofNat, signature_eq_ofNat, h]

end Sys2Proof.Machine
end

section
/-! ESER's errors, EDES on wrong lengths and on a body, and the three envelope commands in a row (42_envelope.md R153 to
R159). -/

namespace Sys2Proof.Machine

/-- A frame in a handshake-only envelope (42_envelope.md R152). -/
theorem envSerialize_of_unwanted_frame {e : Envelope} {f : Frame} (hm : e.mode = invalidStationKey)
    (hf : e.innerFrame = some f) : envSerialize e = .error .protocolError := by
  simp only [envSerialize, if_pos hm, hf]

/-- No frame in an envelope of another mode (42_envelope.md R152). -/
theorem envSerialize_of_missing_frame {e : Envelope} (hm : e.mode ≠ invalidStationKey) (hf : e.innerFrame = none) :
    envSerialize e = .error .protocolError := by
  simp only [envSerialize, if_neg hm, hf]

/-- A frame that does not encode (42_envelope.md R152). -/
theorem envSerialize_of_frameEncode_error {e : Envelope} {f : Frame} {k : ErrorKind} (hm : e.mode ≠ invalidStationKey)
    (hf : e.innerFrame = some f) (hk : frameEncode f = .error k) : envSerialize e = .error k := by
  simp only [envSerialize, if_neg hm, hf, hk]

/-- ESER on an envelope that does not serialise (42_envelope.md R153). -/
theorem exec_eser_of_error {s : State} {k : ErrorKind} (h : envSerialize s.envelope = .error k) :
    exec .eser s = .next (s.setStatus k.code) := by
  rw [exec_eser_eq, h]
  rfl

/-- Settles O53. -/
theorem eserCommandErrors : Obligations.EserCommandErrors := by
  intro s
  refine ⟨fun hm hf => ?unwanted, fun hm hf => ?missing, fun hm hf hp hl => ?overlong⟩
  case unwanted =>
    exact exec_eser_of_error (envSerialize_of_unwanted_frame hm (by rw [State.envelope_present hf]))
  case missing =>
    exact exec_eser_of_error (envSerialize_of_missing_frame hm (by rw [State.envelope_absent hf]))
  case overlong =>
    have hk : frameEncode s.frame = .error .operandRange :=
      frameEncode_of_not_encodable (by rw [State.frame_present hp]) (by rwa [State.bufBytes_length])
    exact exec_eser_of_error (envSerialize_of_frameEncode_error hm (by rw [State.envelope_present hf]) hk)

/-- Checks 1 and 3 of EnvDeserialize: the lengths that are neither a header's nor the length marker's (42_envelope.md
R155). -/
theorem envDeserialize_of_wrong_length {d : List Byte}
    (h : d.length < headerLength ∨ (headerLength < d.length ∧ d.length ≠ 15 + ((byteAt d 14).toNat + 6)))
    (pwen : Bool) (password : Word) (strict : Bool) :
    envDeserialize d pwen password strict = .error .lengthMismatch := by
  rw [envDeserialize]
  rcases h with h | ⟨h, hlm⟩
  · rw [if_pos h]
  · rw [if_neg h.not_gt, if_neg h.ne', if_pos (by simp only [headerLength] at h; omega)]

/-- The length marker is one byte, so no datagram is longer than DBUF (00_scope.md R8; 42_envelope.md R158 (d)). -/
theorem envDeserialize_of_cap_lt {d : List Byte} (h : Buf.dbuf.cap < d.length) (pwen : Bool) (password : Word)
    (strict : Bool) : envDeserialize d pwen password strict = .error .lengthMismatch := by
  refine envDeserialize_of_wrong_length (.inr ?_) pwen password strict
  have := (byteAt d 14).isLt
  simp only [Buf.cap, headerLength] at *
  omega

theorem State.bufBytes_byteAt (s : State) (b : Buf) {n i : Nat} (h : i < n) :
    byteAt (s.bufBytes b n) i = s.bufByte b i := by
  rw [byteAt, List.getD_eq_getElem?_getD, State.bufBytes_getElem?, if_pos h]
  rfl

/-- EDES on bytes that EnvDeserialize calls a LengthMismatch, whether DLEN is inside the buffer or above it
(42_envelope.md R156, R158 (d)). -/
theorem exec_edes_of_lengthMismatch {s : State}
    (h : envDeserialize s.dbufBytes s.pwen s.password s.strict = .error .lengthMismatch) :
    exec .edes s = .next (s.setStatus 4#8) := by
  rcases Nat.lt_or_ge Buf.dbuf.cap s.dlen.toNat with hcap | hcap
  · exact exec_edes_of_cap_lt hcap
  · rw [exec_edes_of_le_cap hcap, h]
    rfl

/-- Settles O54: a DLEN above the buffer ends as EnvDeserialize does on bytes that many. -/
theorem edesCommandLengthErrors : Obligations.EdesCommandLengthErrors := by
  refine ⟨fun s h => exec_edes_of_lengthMismatch ?_, fun d pwen strict password h =>
    envDeserialize_of_cap_lt h pwen password strict⟩
  have hlen : s.dbufBytes.length = s.dlen.toNat := State.bufBytes_length ..
  rcases h with hshort | hlong | ⟨hbody, hlm⟩
  · exact envDeserialize_of_wrong_length (.inl (by rwa [hlen])) ..
  · exact envDeserialize_of_cap_lt (by rwa [hlen]) ..
  · have hmarker : byteAt s.dbufBytes 14 = s.bufByte .dbuf 14 := State.bufBytes_byteAt s .dbuf hbody
    exact envDeserialize_of_wrong_length (.inr (by rw [hlen, hmarker]; exact ⟨hbody, hlm⟩)) ..

/-- EDES on a datagram with a body ends as EnvDeserialize does: the longest body fits DBUF (00_scope.md R8). -/
theorem exec_edes_of_body {s : State} {tid skey sig : Word} {mode : Half} {lm : Byte} {enc : List Byte}
    (hl : enc.length = lm.toNat + 6)
    (h : s.dbufBytes = le32 tid ++ le16 mode ++ le32 skey ++ le32 sig ++ [lm] ++ enc) :
    exec .edes s = commit s ((envDeserialize (le32 tid ++ le16 mode ++ le32 skey ++ le32 sig ++ [lm] ++ enc)
      s.pwen s.password s.strict).map s.setEnvelope) := by
  refine exec_edes_of_dbufBytes h ?_
  have := lm.isLt
  simp only [List.length_append, le32_length, le16_length, List.length_singleton, hl, Buf.cap]
  omega

/-- What EDES's success writes for an envelope with frame `f`: the header fields, HASF, the frame registers and
`PBUF[0..len(payload)-1]` (42_envelope.md R156). -/
theorem setEnvelope_present_effect {s t : State} {tid skey sig : Word} {mode : Half} {f : Frame}
    (hlen : (f.payload.getD []).length ≤ 255)
    (ht : t = (s.setEnvelope ⟨tid, mode, skey, sig, some f⟩).setStatus 0#8) :
    t = { s with tid := tid, mode := mode, skey := skey, sig := sig, ectl := 1#1,
                 src := f.sourceAddr, dst := f.destAddr, msgid := f.msgId, fctl := t.fctl, plen := t.plen,
                 status := 0#8, mem := t.mem } ∧
      t.frame = f ∧ (f.payload = none → t.plen = 0#8) ∧
      ∀ a, ¬(Buf.pbuf.base ≤ a ∧ a < Buf.pbuf.base + (f.payload.getD []).length) →
        t.readByte a = s.readByte a := by
  have hmem : t.mem = Memory.setBytes s.mem Buf.pbuf.base (f.payload.getD []) := by rw [ht]; rfl
  have hdraw : t.draw = s.draw := by rw [ht]; rfl
  refine ⟨by rw [ht]; rfl, ?_, fun hp => ?_, fun a ha => State.readByte_outside hmem hdraw ha⟩
  · rw [ht]
    exact State.frame_setFrame (s.setHeader tid mode skey sig true) f hlen
  · have hplen : t.plen = BitVec.ofNat 8 (f.payload.getD []).length := by rw [ht]; rfl
    rw [hplen, hp]
    rfl

theorem State.pwen_iff (s : State) : s.pwen = true ↔ s.ctrl = 1#1 := by
  rw [State.pwen, beq_iff_eq]

/-- Settles O56: checks 4 to 6 in their order, then the envelope written. -/
theorem edesCommandOnBody : Obligations.EdesCommandOnBody := by
  intro s tid skey sig mode lm enc hl h
  rw [exec_edes_of_body hl h, envDeserialize_body tid skey sig mode lm enc s.pwen s.strict s.password hl]
  refine ⟨fun hstrict hmode => ?strictMode, fun hmode => ⟨fun k hk => ?frameError, fun f hf => ?frame⟩⟩
  case strictMode =>
    rw [if_pos ⟨hstrict, hmode⟩]
    rfl
  case frameError =>
    rw [if_neg hmode, hk]
    rfl
  case frame =>
    rw [if_neg hmode, hf, ← State.pwen_iff]
    refine ⟨fun hsig => ?_, fun hsig => ?_⟩
    · simp only [if_pos hsig]
      rfl
    · simp only [if_neg hsig]
      have hlen := (frameDecode_payload_length hf).trans (by decide : 252 ≤ 255)
      exact ⟨_, rfl, setEnvelope_present_effect hlen rfl⟩

/-- After a successful ESER, DBUF up to DLEN holds the serialised envelope, for EDES to read. -/
theorem exec_eser_ready_for_edes {s : State} {bytes : List Byte} (h : envSerialize s.envelope = .ok bytes) :
    ∃ t, exec .eser s = .next t ∧
      t = { s with dlen := BitVec.ofNat 16 bytes.length, status := 0#8, mem := t.mem } ∧ t.dbufBytes = bytes := by
  obtain ⟨t, hexec, ht, hbytes, _⟩ := exec_eser_of_envSerialize h
  have hlen : t.dlen.toNat = bytes.length := by
    have := envSerialize_length h
    rw [ht, BitVec.toNat_ofNat]
    omega
  exact ⟨t, hexec, ht, by rw [State.dbufBytes, hlen, hbytes]⟩

/-- EDES on a datagram that deserialises to an envelope whose payload fits PLEN (42_envelope.md R156). -/
theorem exec_edes_of_envDeserialize {s : State} {d : List Byte} {e : Envelope} (hd : s.dbufBytes = d)
    (hfits : d.length ≤ Buf.dbuf.cap) (he : envDeserialize d s.pwen s.password s.strict = .ok e)
    (hlen : ∀ f, e.innerFrame = some f → (f.payload.getD []).length ≤ 255) :
    ∃ t, exec .edes s = .next t ∧ t.status = 0#8 ∧ t.envelope = e := by
  refine ⟨(s.setEnvelope e).setStatus statusOk, ?_, rfl, State.envelope_setEnvelope s e hlen⟩
  rw [exec_edes_of_dbufBytes hd hfits, he]
  rfl

/-- ESIGN makes the signature of `Envelope()` the right one for PASSWORD (42_envelope.md R149). -/
theorem exec_esign_effect {s : State} (h : s.ectl = 1#1) :
    ∃ t, exec .esign s = .next t ∧ t.password = s.password ∧
      t.envelope = ⟨s.tid, s.mode, s.skey, signature s.password s.tid s.skey s.frame.checksum, some s.frame⟩ := by
  rw [exec_esign_of_hasf (State.hasf_of_set h), commit_ok]
  generalize signature s.password s.tid s.skey s.frame.checksum = v
  exact ⟨_, rfl, rfl, State.envelope_present h⟩

/-- Settles O59: EDES reads the datagram ESER wrote, whose signature ESIGN made from the PASSWORD that EDES
checks with. -/
theorem esignEserEdesRestoresTheEnvelope : Obligations.EsignEserEdesRestoresTheEnvelope := by
  intro s hectl hmode hframe
  have hencodable := State.frame_encodable hframe
  obtain ⟨plain, hplain⟩ := frameEncode_of_encodable hencodable
  obtain ⟨t, htexec, htpassword, htenv⟩ := exec_esign_effect hectl
  have hser := envSerialize_of_present (e := t.envelope) (by rwa [htenv]) (by rw [htenv]) hplain
  obtain ⟨u, huexec, hu, hubytes⟩ := exec_eser_ready_for_edes hser
  have hupassword : u.password = s.password := by rw [hu, htpassword]
  have hdes := deserializeOfSerializeIsTheEnvelope t.envelope _ u.pwen u.strict u.password hser
    (.inr (.inr ⟨s.frame, by rw [htenv], by rw [htenv, hupassword]⟩))
  have hfits := (envSerialize_length hser).trans (by decide : 264 ≤ Buf.dbuf.cap)
  obtain ⟨v, hvexec, hvstatus, hvenv⟩ := exec_edes_of_envDeserialize hubytes hfits hdes fun f hf => by
    rw [htenv] at hf
    cases hf
    exact hencodable.trans (by decide)
  obtain ⟨hvtid, hvmode, hvskey, _, hvframe⟩ := Envelope.mk.inj (hvenv.trans htenv)
  refine ⟨t, u, v, htexec, huexec, hvexec, hvstatus, hvenv, ?_, hvtid, hvmode, hvskey⟩
  split at hvframe
  · exact Option.some.inj hvframe
  · cases hvframe

end Sys2Proof.Machine
end

section
/-! How a command ends, and STATUS before it (60_exceptions.md R200, R207, R213, R216): a command writes STATUS and never
reads it. -/

namespace Sys2Proof.Machine

/-- A command's end does not depend on the old STATUS, when its update does not once STATUS is 0. -/
theorem commit_map_setStatus (s : State) (old : BitVec 8) {α : Type} (r : Except ErrorKind α) {f : State → α → State}
    (hf : ∀ x, (f (s.setStatus old) x).setStatus statusOk = (f s x).setStatus statusOk) :
    commit (s.setStatus old) (r.map (f (s.setStatus old))) = commit s (r.map (f s)) := by
  cases r with
  | error k => rfl
  | ok x => exact congrArg Host.Outcome.next (hf x)

/-- `Envelope() <- e` does not read STATUS. -/
theorem State.setEnvelope_setStatus (s : State) (v : BitVec 8) (e : Envelope) :
    (s.setStatus v).setEnvelope e = (s.setEnvelope e).setStatus v := by
  obtain ⟨tid, mode, skey, sig, _ | f⟩ := e <;> rfl

/-- No command reads STATUS: the operands are other fields, and each command ends with STATUS overwritten. -/
theorem exec_setStatus (i : Instr) (s : State) (old : BitVec 8) : exec i (s.setStatus old) = exec i s := by
  cases i with
  | transform => exact commit_map_setStatus s old (.ok _) (f := State.setResult) fun _ => rfl
  | cksum => exact commit_map_setStatus s old (.ok _) (f := State.setCk) fun _ => rfl
  | kstream => exact commit_map_setStatus s old (.ok _) (f := State.setKeystream) fun _ => rfl
  | fenc =>
    rw [exec_fenc_eq, exec_fenc_eq]
    exact commit_map_setStatus s old (frameEncode s.frame) fun _ => rfl
  | fdec =>
    rcases Nat.lt_or_ge Buf.fbuf.cap s.flen.toNat with hlong | hfits
    · rw [exec_fdec_of_cap_lt hlong, exec_fdec_of_cap_lt (s := s.setStatus old) hlong]
      rfl
    · rw [exec_fdec_of_le_cap hfits, exec_fdec_of_le_cap (s := s.setStatus old) hfits]
      exact commit_map_setStatus s old (frameDecode s.fbufBytes s.strict) fun _ => rfl
  | crypt =>
    rcases Nat.lt_or_ge Buf.fbuf.cap s.flen.toNat with hlong | hfits
    · rw [exec_crypt_of_cap_lt hlong, exec_crypt_of_cap_lt (s := s.setStatus old) hlong]
      rfl
    · rw [exec_crypt_of_le_cap hfits, exec_crypt_of_le_cap (s := s.setStatus old) hfits]
      exact commit_map_setStatus s old (.ok _) (f := (·.storeBuf .fbuf ·)) fun _ => rfl
  | esign =>
    cases hhasf : s.hasf with
    | true =>
      rw [exec_esign_of_hasf hhasf, exec_esign_of_hasf (s := s.setStatus old) hhasf]
      exact commit_map_setStatus s old (.ok _) (f := State.setSig) fun _ => rfl
    | false =>
      rw [exec_esign_of_not_hasf hhasf, exec_esign_of_not_hasf (s := s.setStatus old) hhasf]
      rfl
  | eser =>
    rw [exec_eser_eq, exec_eser_eq]
    exact commit_map_setStatus s old (envSerialize s.envelope) fun _ => rfl
  | edes =>
    rcases Nat.lt_or_ge Buf.dbuf.cap s.dlen.toNat with hlong | hfits
    · rw [exec_edes_of_cap_lt hlong, exec_edes_of_cap_lt (s := s.setStatus old) hlong]
      rfl
    · rw [exec_edes_of_le_cap hfits, exec_edes_of_le_cap (s := s.setStatus old) hfits]
      exact commit_map_setStatus s old (envDeserialize s.dbufBytes s.pwen s.password s.strict) fun e => by
        rw [State.setEnvelope_setStatus]
        rfl
  | wireShortFrame _ _ _ _ | wireLongFrameHead _ _ _ _ | wireEnvelopeHeader _ _ _ _ | wireEnvelopeBodyHead _ => rfl

/-- A CMD write does not read STATUS, whether its bits name a row or not (30_encoding.md R81). -/
theorem writeCmd_setStatus (s : State) (old : BitVec 8) (size value : Nat) :
    writeCmd (s.setStatus old) size value = writeCmd s size value := by
  cases hd : decodeTableWord (8 * size) value with
  | some i => rw [writeCmd_of_decode hd, writeCmd_of_decode hd, exec_setStatus]
  | none =>
    simp only [writeCmd, hd]
    rfl

/-- Settles O10: both steps are the same CMD write, from states that differ in STATUS alone. -/
theorem statusIsNotSticky : Obligations.StatusIsNotSticky := by
  intro s rest v old hp
  calc step { s with status := old }
      = writeCmd ((s.setPending rest).setStatus old) 4 v := step_of_pending_cmd hp
    _ = writeCmd (s.setPending rest) 4 v := writeCmd_setStatus _ old 4 v
    _ = step s := (step_of_pending_cmd hp).symm

/-- Settles O11: a command answers a next state, and `exec_next` says which states that can be. -/
theorem commandsEndInSuccessOrChangeStatusOnly : Obligations.CommandsEndInSuccessOrChangeStatusOnly := by
  intro i s hi
  obtain ⟨t, ht⟩ := exec_completes hi s
  refine ⟨t, ht, ?_⟩
  rcases exec_next ht with ⟨k, rfl⟩ | ⟨u, _, rfl⟩
  · exact .inr ⟨k, rfl⟩
  · exact .inl rfl

/-- Settles O8. -/
theorem idleBlockHoldsItsState : Obligations.IdleBlockHoldsItsState :=
  fun _ => step_of_idle

end Sys2Proof.Machine
end

section
/-! The commands straight after reset (70_reset_and_hazards.md R231): every operand is zero, absent or empty, so each
command's end is its own rule on those. -/

namespace Sys2Proof.Machine

/-- The zero law leads from data 0 to data 1, where the key-0 closed form holds (40_blockcipher.md R113, R114). -/
theorem transform_zero_zero : transform 0#32 0#32 = 0xD3#32 := by
  obtain ⟨zeroLaw, _, smallKeys⟩ := transformClosedForms
  calc transform 0#32 0#32
      = transform 0#32 1#32 - 1#32 := zeroLaw 0#32
    _ = 17#32 * 1#32 + 195#32 - 1#32 := by rw [(smallKeys 1#32 (by decide)).1]
    _ = 0xD3#32 := rfl

/-- The closed form for key 0, where the data is the complement of transaction id 0 (40_blockcipher.md R114). -/
theorem transform_zero_allOnes : transform 0#32 0xFFFFFFFF#32 = 0xB2#32 := by
  obtain ⟨_, _, smallKeys⟩ := transformClosedForms
  calc transform 0#32 0xFFFFFFFF#32
      = 17#32 * 0xFFFFFFFF#32 + 195#32 := (smallKeys 0xFFFFFFFF#32 (by decide)).1
    _ = 0xB2#32 := rfl

/-- `Frame()` after reset: no payload, so no buffer byte is in it. -/
theorem State.frame_reset : State.reset.frame = ⟨0#8, 0#8, 0#8, none⟩ := State.frame_absent rfl

theorem exec_transform_reset : exec .transform State.reset = .next { State.reset with result := 0xD3#32 } := by
  have hresult : transform State.reset.key State.reset.data = 0xD3#32 := transform_zero_zero
  rw [exec_transform_eq, commit_ok, hresult]
  rfl

theorem exec_cksum_reset : exec .cksum State.reset = .next State.reset := by
  have hck : State.reset.frame.checksum = 0#8 := by
    rw [State.frame_reset]
    rfl
  rw [exec_cksum_eq, commit_ok, hck]
  rfl

theorem exec_fenc_reset :
    ∃ t, exec .fenc State.reset = .next t ∧ t = { State.reset with flen := 6#16, mem := t.mem } ∧
      t.bufBytes .fbuf 6 = [0x10#8, 0x00#8, 0x00#8, 0x00#8, 0x00#8, 0x16#8] ∧
      ∀ a, ¬(0x200 ≤ a ∧ a < 0x206) → t.readByte a = State.reset.readByte a :=
  (fencCommandWritesTheFrame State.reset).1 rfl

/-- FLEN is 0, so FrameDecode's first check fails, whatever STRICT is (41_framecodec.md R128). -/
theorem exec_fdec_reset : exec .fdec State.reset = .next { State.reset with status := 1#8 } := by
  have hempty (strict : Bool) : frameDecode [] strict = .error .framingError := rfl
  exact exec_fdec_of_framingError (hempty State.reset.strict)

theorem exec_kstream_reset :
    exec .kstream State.reset = .next { State.reset with k1 := 0xB2#32, k2 := 0xD3#32 } := by
  have hwords : keystreamWords State.reset.skey State.reset.tid = (0xB2#32, 0xD3#32) :=
    Prod.ext transform_zero_allOnes transform_zero_zero
  rw [exec_kstream_eq, commit_ok, hwords]
  rfl

/-- FLEN is 0, so no byte is XORed and none is written (42_envelope.md R146). -/
theorem exec_crypt_reset : exec .crypt State.reset = .next State.reset := by
  have hempty : xorKeystream State.reset.skey State.reset.tid State.reset.fbufBytes = [] := rfl
  rw [exec_crypt_of_le_cap (Nat.zero_le _), commit_ok, hempty]
  rfl

/-- HASF is clear (42_envelope.md R149). -/
theorem exec_esign_reset : exec .esign State.reset = .next { State.reset with status := 5#8 } :=
  (esignCommandWritesTheSignature State.reset).2 rfl

/-- MODE asks for a frame and HASF is clear (42_envelope.md R152). -/
theorem exec_eser_reset : exec .eser State.reset = .next { State.reset with status := 5#8 } :=
  (eserCommandErrors State.reset).2.1 (by decide) rfl

/-- DLEN is 0, less than a header (42_envelope.md R155, check 1). -/
theorem exec_edes_reset : exec .edes State.reset = .next { State.reset with status := 4#8 } :=
  edesCommandLengthErrors.1 State.reset (.inl (by decide))

/-- Settles O17: each command's own rule at the reset state. -/
theorem commandsStraightAfterReset : Obligations.CommandsStraightAfterReset :=
  ⟨exec_transform_reset, exec_cksum_reset, exec_fenc_reset, exec_fdec_reset, exec_kstream_reset, exec_crypt_reset,
    exec_esign_reset, exec_eser_reset, exec_edes_reset⟩

end Sys2Proof.Machine
end
